-- ==== Sys2Proof/Word.lean ====
section
/-!
DEFINITION. The widths of what the core holds and moves: host words, window offsets, operand registers and the
two wide internal registers.

An instance has operand width `W` (00_scope.md R6), a multiple of 32 with `64 ≤ W ≤ 2048`. One type serves every
instance: an operand register is stored in 2048 bits, of which an instance of width `W` uses the low `W`; that
the others are 0 is an invariant (`State.Inv`, notes/assumptions/17.md).
-/

namespace Sys2Proof

/-- A 32-bit word of the host port: a command word, a register word (20_memory.md R60, R63). -/
abbrev Word := BitVec 32

/-- One byte of an operand's big-endian buffer (20_memory.md R63). -/
abbrev Byte := BitVec 8

/-- A byte offset within the 4096-byte register window (20_memory.md R61). -/
abbrev Offset := BitVec 12

/-- An operand register (10_state.md R20) of the widest instance; an instance of width `W` uses the low `W` bits. -/
abbrev Operand := BitVec 2048

/-- PROD, the 2W-bit product register (10_state.md R33), at its widest. -/
abbrev Product := BitVec 4096

/-- REM, the (W+1)-bit running remainder (10_state.md R33), at its widest. -/
abbrev Remainder := BitVec 2049

end Sys2Proof
end

