-- ==== Sys2Proof/Machine/Bigint.lean ====
section
/-!
DEFINITION. The fixed-width integer primitives of 41_bigint_primitives.md. A FixedWidthUInt(W) is a number below `2^W`
(R130), so each primitive takes its width and numbers, computes exactly, and narrows as its rule says. A one-bit signal
is a Bool. None reads or writes state and none can fail (R140).
-/

namespace Sys2Proof.Machine

/-- `add_with_carry(a, b, cin)` at width `w` (R133): the sum modulo `2^w`, and the carry. -/
def addWithCarry (w a b : Nat) (cin : Bool) : Nat × Bool :=
  ((a + b + cin.toNat) % 2 ^ w, decide (2 ^ w ≤ a + b + cin.toNat))

/-- `sub_with_borrow(a, b, bin)` at width `n` (R134): the difference modulo `2^n`, and the borrow. -/
def subWithBorrow (n a b : Nat) (bin : Bool) : Nat × Bool :=
  ((a + 2 ^ n - (b + bin.toNat) % 2 ^ n) % 2 ^ n, decide (a < b + bin.toNat))

/-- `multiply_full(a, b)`: the exact double-width product (R135). -/
def multiplyFull (a b : Nat) : Nat := a * b

/-- `eq(a, b)` (R136). -/
def eqBit (a b : Nat) : Bool := a == b

/-- `Select(flag, if_true, if_false)` (R138), as a value. -/
def select (flag : Bool) (ifTrue ifFalse : Nat) : Nat := if flag then ifTrue else ifFalse

/-- `mask(f)` at width `w` (R138): all ones, or zero. -/
def selectMask (w : Nat) (flag : Bool) : Nat := if flag then 2 ^ w - 1 else 0

/-- The branch-free form of `Select` at width `w` (R138): mask and merge. -/
def selectMasked (w : Nat) (flag : Bool) (ifTrue ifFalse : Nat) : Nat :=
  (ifTrue &&& selectMask w flag) ||| (ifFalse &&& selectMask w (!flag))

/-- `ge(r, m)` at width `n` (R139): no borrow of the subtraction that is always performed. -/
def geBit (n r m : Nat) : Bool := !(subWithBorrow n r m false).2

/-- `Bit(e, i)`, the bit of weight `2^i` (00_scope.md R11; 43_binary_exponent_decoder.md R171). -/
def bitOf (e i : Nat) : Bool := e.testBit i

/-- `from_big_endian_bytes(B)` (R132): the first byte is the most significant. -/
def fromBigEndianBytes (bytes : List Byte) : Nat := bytes.foldl (fun v b => v * 256 + b.toNat) 0

/-- Byte `k` of the big-endian buffer of a `w`-bit value: bits `w-1-8k` down to `w-8-8k` (R141). -/
def bigEndianByte (w v k : Nat) : Byte := BitVec.ofNat 8 (v / 2 ^ (w - 8 - 8 * k))

/-- `to_big_endian_bytes(v)` of a `w`-bit value (R141). -/
def toBigEndianBytes (w v : Nat) : List Byte := (List.range (w / 8)).map (bigEndianByte w v)

end Sys2Proof.Machine
end

