-- ==== Sys2Proof/Config.lean ====
section
/-!
DEFINITION. What an implementation fixes (00_scope.md R10: `W` and the four latencies, "no others"), and the free
values (R12: `any_W`).

The parameters are data that `State` carries and no step changes, so a statement about every state is a statement
about every instance (notes/assumptions/1.md). The free values come from one opaque constant with no body, read
through the counter `State.draws` (notes/assumptions/6.md).
-/

namespace Sys2Proof

/-- The parameters of one instance (00_scope.md R10). -/
structure Params where
  /-- `W`, the operand width in bits (R6). -/
  width : Nat
  /-- `LAT_MODMUL`, in clock cycles (R9; 40_command_lifecycle.md R118). -/
  latModmul : Nat
  /-- `LAT_MODEXP_FULL`. -/
  latModexpFull : Nat
  /-- `LAT_MODEXP_E64`. -/
  latModexpE64 : Nat
  /-- `LAT_MODEXP_E32`. -/
  latModexpE32 : Nat
deriving DecidableEq, Repr

/-- `W/32`, the number of 32-bit words of an operand (20_memory.md R62) and CFG.NWORDS (10_state.md R28). -/
def Params.nwords (p : Params) : Nat := p.width / 32

/-- The observed 256-bit instance. DESIGN CHOICE (notes/assumptions/2.md): the latencies are OPEN (R9); these are
those of an engine that uses its multiplier once per cycle, the least that R262 states for one that does not
overlap uses. -/
def Params.observed256 : Params :=
  { width := 256, latModmul := 1, latModexpFull := 512, latModexpE64 := 128, latModexpE32 := 64 }

/-- The observed 2048-bit instance, with latencies chosen as for `Params.observed256`. -/
def Params.observed2048 : Params :=
  { width := 2048, latModmul := 1, latModexpFull := 4096, latModexpE64 := 128, latModexpE32 := 64 }

/-- The free values: `Config.anyValue n` is what the spec leaves unspecified at the `n`-th draw. It has no body, so
nothing can be proved of it. -/
opaque Config.anyValue : Nat → Nat

/-- `any_W` (00_scope.md R12): a value of `[0, 2^bits)` with no law, the `n`-th drawn. -/
def Config.anyBits (bits n : Nat) : Nat := Config.anyValue n % 2 ^ bits

end Sys2Proof
end

