-- ==== Sys2Proof/Syntax.lean ====
section
/-!
DEFINITION. The commands of MXC-1 as abstract syntax: one constructor per row of spec/opcode_table.json
(30_encoding.md R98). A command carries no operand (R94), so no constructor has an argument.
-/

namespace Sys2Proof

/-- The commands (what other specs call instructions: 00_scope.md R13). -/
inductive Instr where
  /-- `MODMUL`: RESULT <- (OPA * OPB) mod MOD (42_modular_multiplier.md R156). -/
  | modmul
  /-- `MODEXP`: RESULT <- OPA ^ EXP mod MOD, exponent width W (44_square_and_multiply_engine.md R198). -/
  | modexp
  /-- `MODEXP.E64`: the exponent is EXP[63:0] (R199). -/
  | modexpE64
  /-- `MODEXP.E32`: the exponent is EXP[31:0] (R200). -/
  | modexpE32
deriving DecidableEq, Repr

end Sys2Proof
end

