-- ==== Sys2Proof/WellFormed.lean ====
section
/-!
DEFINITION. Which terms are well formed.

A command has no operand that could be out of range (30_encoding.md R94), so every `Instr` is well formed. The
checks that can fail are those on the parameters of an instance (00_scope.md R6, R9) and on the fields of a command
word before it is decoded (30_encoding.md R90 to R93).
-/

namespace Sys2Proof

/-- Every command is well formed: it carries no register number and no immediate (30_encoding.md R94). -/
def Instr.wellFormed (i : Instr) : Bool :=
  match i with
  | .modmul => true
  | .modexp => true
  | .modexpE64 => true
  | .modexpE32 => true

/-- The parameters an instance may have: `W` a multiple of 32 in [64, 2048] (00_scope.md R6; the observed 256 and
2048 are two of them) and positive latencies (R9). DESIGN CHOICE (notes/assumptions/24.md): at `W = 64` the latencies of
FULL and E64, which both have `W' = 64`, may differ. -/
abbrev Params.Wf (p : Params) : Prop :=
  p.width % 32 = 0 ∧ 64 ≤ p.width ∧ p.width ≤ 2048 ∧
    0 < p.latModmul ∧ 0 < p.latModexpFull ∧ 0 < p.latModexpE64 ∧ 0 < p.latModexpE32

/-- The field values a legal command word has (30_encoding.md R93): reserved bits zero, and OP and EMODE a pair that
names a command. -/
def legalFields (rsvd : BitVec 26) (emode : BitVec 2) (op : BitVec 4) : Bool :=
  rsvd == 0#26 &&
    ((op == 0x1#4 && emode == 0b00#2) ||
      (op == 0x2#4 && (emode == 0b00#2 || emode == 0b01#2 || emode == 0b10#2)))

end Sys2Proof
end

