-- ==== Sys2Proof/Decode.lean ====
section
/-!
DEFINITION. The decoder of command words, total over all 2^32 of them (30_encoding.md R96), the encoder, and the
host's view of the decoder.

The one format (R90): OP in bits 3:0, EMODE in bits 5:4, RSVD in bits 31:6.
-/

namespace Sys2Proof

/-- OP, bits 3:0 (30_encoding.md R90). -/
def opField (v : Word) : BitVec 4 := v.extractLsb' 0 4

/-- EMODE, bits 5:4 (30_encoding.md R90). -/
def emodeField (v : Word) : BitVec 2 := v.extractLsb' 4 2

/-- RSVD, bits 31:6 (30_encoding.md R90). -/
def rsvdField (v : Word) : BitVec 26 := v.extractLsb' 6 26

/-- A command word from its fields, RSVD zero (30_encoding.md R90). -/
def commandWord (emode : BitVec 2) (op : BitVec 4) : Word := 0#26 ++ emode ++ op

/-- `Legal(v)` (30_encoding.md R93). -/
def legal (v : Word) : Bool := legalFields (rsvdField v) (emodeField v) (opField v)

/-- Why a command word is illegal (30_encoding.md R95). -/
inductive Illegal where
  /-- A bit of RSVD is 1. -/
  | reservedBitSet
  /-- OP is 0x0 or 0x3 to 0xF (R91). -/
  | reservedOp
  /-- MODMUL with EMODE other than 0b00. -/
  | modmulWithEmode
  /-- MODEXP with EMODE 0b11 (R92). -/
  | reservedEmode
deriving DecidableEq, Repr

/-- What a command word decodes to: a command, or illegal for a named reason (30_encoding.md R96). -/
inductive Decoded where
  | command (i : Instr)
  | illegal (why : Illegal)
deriving DecidableEq, Repr

/-- The decoder (30_encoding.md R91, R92, R93, R95, R96). -/
def decode (v : Word) : Decoded :=
  if rsvdField v ≠ 0#26 then .illegal .reservedBitSet
  else if opField v = 0x1#4 then
    if emodeField v = 0b00#2 then .command .modmul else .illegal .modmulWithEmode
  else if opField v = 0x2#4 then
    if emodeField v = 0b00#2 then .command .modexp
    else if emodeField v = 0b01#2 then .command .modexpE64
    else if emodeField v = 0b10#2 then .command .modexpE32
    else .illegal .reservedEmode
  else .illegal .reservedOp

/-- The encoder, from the field values of 30_encoding.md R91 and R92. -/
def encode (i : Instr) : Word :=
  match i with
  | .modmul => commandWord 0b00#2 0x1#4
  | .modexp => commandWord 0b00#2 0x2#4
  | .modexpE64 => commandWord 0b01#2 0x2#4
  | .modexpE32 => commandWord 0b10#2 0x2#4

/-- The command of a decoded word, if it is one. -/
def Decoded.toInstr? (d : Decoded) : Option Instr :=
  match d with
  | .command i => some i
  | .illegal _ => none

/-- The command word whose low `nbits` bits are those of `w` and whose bits above are 0: the word the host writes to
CMD. -/
def tableWord (nbits w : Nat) : Word := BitVec.ofNat 32 (w % 2 ^ nbits)

/-- What the decoder reads from a row of spec/opcode_table.json. A command is one 32-bit word (30_encoding.md R90), so
nothing longer decodes (notes/assumptions/20.md). -/
def decodeTableWord (nbits w : Nat) : Option Instr :=
  if 32 < nbits then none else (decode (tableWord nbits w)).toInstr?

end Sys2Proof
end

