-- ==== Sys2Proof/Machine/Port.lean ====
section
/-!
DEFINITION. What crosses the host port: transactions and responses (20_memory.md R60), the register map (R61 to R65),
and the events that can happen to the core, one a step.
-/

namespace Sys2Proof.Machine

/-- A host transaction: `req_write`, `req_addr`, `req_size`, `req_wdata` of 20_memory.md R60. -/
structure Transaction where
  write : Bool
  addr : Offset
  /-- 0 is 1 byte, 1 is 2 bytes, 2 is 4 bytes, 3 is reserved. -/
  size : BitVec 2
  wdata : Word
deriving DecidableEq, Repr

/-- The aligned 4-byte read `MemRead(a, 4)` (20_memory.md R68). -/
def Transaction.read (a : Offset) : Transaction := { write := false, addr := a, size := 2#2, wdata := 0#32 }

/-- The aligned 4-byte write `MemWrite(a, 4, v)` (20_memory.md R69). -/
def Transaction.store (a : Offset) (v : Word) : Transaction := { write := true, addr := a, size := 2#2, wdata := v }

/-- The access rule of 20_memory.md R67: four bytes, aligned. Any other transaction is a bus error. -/
def Transaction.accessOk (t : Transaction) : Bool := t.size == 2#2 && t.addr.extractLsb' 0 2 == 0#2

/-- A response: `rsp_rdata` and `rsp_err` of 20_memory.md R60. -/
structure Response where
  rdata : Word
  err : Bool
deriving DecidableEq, Repr

/-- The response to a write: data 0, no error (20_memory.md R60, R69). -/
def Response.written : Response := { rdata := 0#32, err := false }

/-- The response to a refused transaction (20_memory.md R67; 60_exceptions.md R221). -/
def Response.busError : Response := { rdata := 0#32, err := true }

/-- The five operand registers (10_state.md R20). -/
inductive OperandReg where
  | opa | opb | mod | exp | result
deriving DecidableEq, Repr

/-- `base(X)`, the offset of a register's window (20_memory.md R62). -/
def OperandReg.base (r : OperandReg) : Nat :=
  match r with
  | .opa => 0x100
  | .opb => 0x200
  | .mod => 0x300
  | .exp => 0x400
  | .result => 0x500

/-- What an aligned offset of the window reaches (20_memory.md R61). -/
inductive Target where
  | cfg
  | cmd
  | status
  | ctrl
  /-- Word `j` of an operand register. -/
  | operand (r : OperandReg) (j : Nat)
  /-- A reserved offset, or an unused offset of an operand window: RAZ/WI (20_memory.md R64, R65). -/
  | unmapped
deriving DecidableEq, Repr

/-- The word `j` an offset names within its 256-byte window, `(a & 0xFF) >> 2` (20_memory.md R68). -/
def windowWord (a : Offset) : Nat := a.toNat % 256 / 4

/-- The operand window an offset lies in, by `a >> 8` (20_memory.md R61, R68). -/
def windowReg (a : Offset) : Option OperandReg :=
  match a.toNat / 256 with
  | 1 => some .opa
  | 2 => some .opb
  | 3 => some .mod
  | 4 => some .exp
  | 5 => some .result
  | _ => none

/-- The register map (20_memory.md R61), for an instance of `nwords` words an operand (R64). -/
def target (nwords : Nat) (a : Offset) : Target :=
  if a = 0x000#12 then .cfg
  else if a = 0x004#12 then .cmd
  else if a = 0x008#12 then .status
  else if a = 0x00C#12 then .ctrl
  else
    match windowReg a with
    | some r => if windowWord a < nwords then .operand r (windowWord a) else .unmapped
    | none => .unmapped

/-- Of a clock edge and a transaction of the same cycle, which the other one sees as done (20_memory.md R76;
60_exceptions.md R227c, R228: UNSPECIFIED, so both exist). -/
inductive First where
  | transaction
  | clock
deriving DecidableEq, Repr

/-- What can happen next. The schedule of these is the environment's; every statement ranges over every schedule
(notes/assumptions/7.md). -/
inductive Event where
  /-- The core handles a host transaction (20_memory.md R75). -/
  | txn (t : Transaction)
  /-- A clock edge: CYC counts down and a command may complete (40_command_lifecycle.md R112). -/
  | tick
  /-- A clock edge and a transaction in the same cycle (20_memory.md R76; 60_exceptions.md R227b, R227c). -/
  | cycle (t : Transaction) (first : First)
  /-- The unit in flight performs its next internal operation (40_command_lifecycle.md R112;
  44_square_and_multiply_engine.md R192). -/
  | work
  /-- `rst_n` is held at 0 for a clock edge or more, then released (70_reset_and_hazards.md R250). -/
  | reset
deriving DecidableEq, Repr

end Sys2Proof.Machine
end

