-- ==== Sys2Proof/Machine/State.lean ====
section
/-!
DEFINITION. The state of one instance of the core: every piece of state 10_state.md names, the instance's parameters,
the port's response, and the model's own two fields (`schedule`, `draws`). INVENTORY.md lists each with its rule.
-/

namespace Sys2Proof.Machine

/-- The operation of a command, the OP field of a legal word (30_encoding.md R91). -/
inductive Op where
  | modmul
  | modexp
deriving DecidableEq, Repr

/-- The exponent mode of a command, the EMODE field of a legal word (30_encoding.md R92). -/
inductive EMode where
  | full
  | e64
  | e32
deriving DecidableEq, Repr

/-- PHASE (10_state.md R35). -/
inductive Phase where
  | idle
  | modmul
  | expSquare
  | expMultiply
deriving DecidableEq, Repr

/-- ACTIVE: the operation and the exponent width W' of the command in flight (10_state.md R34). -/
structure Active where
  op : Op
  /-- `W'`, in bits. -/
  width : Nat
deriving DecidableEq, Repr

/-- The STATUS register's fields (10_state.md R30). Its other bits are not storage: they read 0. -/
structure Status where
  busy : Bool
  done : Bool
  mz : Bool
  ill : Bool
  wbusy : Bool
  lastop : BitVec 4
  lastem : BitVec 2
deriving DecidableEq, Repr

/-- STATUS after reset: 0x0000_0000 (10_state.md R38). -/
def Status.reset : Status :=
  { busy := false, done := false, mz := false, ill := false, wbusy := false, lastop := 0x0#4, lastem := 0b00#2 }

/-- The state of one instance. -/
structure State where
  /-- The instance's parameters (00_scope.md R10); no step changes them. -/
  params : Params
  /-- OPA (10_state.md R21). -/
  opa : Operand
  /-- OPB (R22). -/
  opb : Operand
  /-- MOD (R23). -/
  mod : Operand
  /-- EXP (R24). -/
  exp : Operand
  /-- RESULT (R25). -/
  result : Operand
  /-- STATUS (R30). -/
  status : Status
  /-- CTRL.IE (R31). -/
  ie : Bool
  /-- PHASE (R35). -/
  phase : Phase
  /-- CYC, the remaining latency (R35). -/
  cyc : Nat
  /-- ITER, the exponent bits not yet consumed (R34). -/
  iter : Nat
  /-- ACTIVE (R34). -/
  active : Option Active
  /-- ACC, the accumulator (R34). -/
  acc : Operand
  /-- SQ, the squared value of the current iteration (R34). -/
  sq : Operand
  /-- SQB, the squared-times-base value of the current iteration (R34). -/
  sqb : Operand
  /-- PROD (R33). -/
  prod : Product
  /-- REM (R33). -/
  rem : Remainder
  /-- The port's response to the last transaction since reset (20_memory.md R60); none while there was none. -/
  rsp : Option Response
  /-- The model's own field: what happens next (notes/assumptions/7.md). -/
  schedule : List Event
  /-- The model's own field: how many free values have been drawn (notes/assumptions/6.md). -/
  draws : Nat
deriving DecidableEq, Repr

/-- Why a step could end in a fault: the core has no such condition. It has no trap (60_exceptions.md R229); each of its
error conditions is a flag or a response, after which it goes on (R220). So no constructor (notes/assumptions/19.md). -/
inductive Fault where
deriving DecidableEq, Repr

/-- Why a step could be refused. -/
inductive Refusal where
  /-- `exec` raises it for a command with no meaning yet. Safe: the model stops. No command is in that case. -/
  | notModelled (mnemonic : String)
deriving DecidableEq, Repr

/-- The state right after reset of an instance with parameters `p` whose unreset registers hold 0. The control state is
10_state.md R38's. R39 leaves the operand registers and RESULT unspecified: 0 is the model's value (DESIGN CHOICE,
notes/assumptions/3.md), as for the hidden registers (notes/assumptions/4.md). -/
def State.resetOf (p : Params) : State :=
  { params := p, opa := 0#2048, opb := 0#2048, mod := 0#2048, exp := 0#2048, result := 0#2048,
    status := Status.reset, ie := false, phase := .idle, cyc := 0, iter := 0, active := none,
    acc := 0#2048, sq := 0#2048, sqb := 0#2048, prod := 0#4096, rem := 0#2049,
    rsp := none, schedule := [], draws := 0 }

/-- The machine right after reset: the observed 256-bit instance (DESIGN CHOICE, notes/assumptions/2.md), with nothing
scheduled. -/
def State.reset : State := State.resetOf Params.observed256

end Sys2Proof.Machine
end

