-- ==== Sys2Proof/Machine/Operands.lean ====
section
/-!
DEFINITION. The operands of the commands and of the host: the operand registers and their words (20_memory.md R62,
R63), the codes of OP and EMODE, the exponent widths (30_encoding.md R92), and the exponent a command reads
(43_binary_exponent_decoder.md R172 to R176).
-/

namespace Sys2Proof.Machine

/-- `x[R]` (00_scope.md R12). -/
def State.reg (s : State) (r : OperandReg) : Operand :=
  match r with
  | .opa => s.opa
  | .opb => s.opb
  | .mod => s.mod
  | .exp => s.exp
  | .result => s.result

/-- `x[R] <- v` (00_scope.md R12). -/
def State.setReg (s : State) (r : OperandReg) (v : Operand) : State :=
  match r with
  | .opa => { s with opa := v }
  | .opb => { s with opb := v }
  | .mod => { s with mod := v }
  | .exp => { s with exp := v }
  | .result => { s with result := v }

/-- The lowest bit of word `j` of a `width`-bit register: `width-32-32j`, so word 0 is the most significant
(20_memory.md R63). -/
def wordShift (width j : Nat) : Nat := width - 32 - 32 * j

/-- `x[X].word[j]` (20_memory.md R63). -/
def wordOf (width : Nat) (v : Operand) (j : Nat) : Word := v.extractLsb' (wordShift width j) 32

/-- `x[X].word[j] <- w`: the other words are unchanged (20_memory.md R70). -/
def setWord (width : Nat) (v : Operand) (j : Nat) (w : Word) : Operand :=
  (v &&& ~~~((BitVec.allOnes 32).setWidth 2048 <<< wordShift width j)) |||
    (w.setWidth 2048 <<< wordShift width j)

/-- The OP field of a command (30_encoding.md R91). -/
def Op.code (o : Op) : BitVec 4 :=
  match o with
  | .modmul => 0x1#4
  | .modexp => 0x2#4

/-- The EMODE field of a command (30_encoding.md R92). -/
def EMode.code (m : EMode) : BitVec 2 :=
  match m with
  | .full => 0b00#2
  | .e64 => 0b01#2
  | .e32 => 0b10#2

/-- `W'`, the exponent width a mode selects (30_encoding.md R92). -/
def EMode.width (m : EMode) (p : Params) : Nat :=
  match m with
  | .full => p.width
  | .e64 => 64
  | .e32 => 32

/-- The latency of a command (40_command_lifecycle.md R118): it depends on the command and the instance, on no
operand. Each command has a parameter of its own, also at `W = 64`, where FULL and E64 both have `W' = 64` (DESIGN CHOICE,
notes/assumptions/24.md). -/
def latencyOf (p : Params) (o : Op) (m : EMode) : Nat :=
  match o with
  | .modmul => p.latModmul
  | .modexp =>
    match m with
    | .full => p.latModexpFull
    | .e64 => p.latModexpE64
    | .e32 => p.latModexpE32

/-- The exponent of width `W'`: `x[EXP][W'-1:0]`, the bits above ignored (43_binary_exponent_decoder.md R172). -/
def exponentOf (exp : Operand) (width : Nat) : Nat := exp.toNat % 2 ^ width

/-- The binary_exponent_decoder's output for index `idx` (43_binary_exponent_decoder.md R170, R171). -/
def decoderBit (exp : Operand) (width idx : Nat) : Bool := bitOf (exponentOf exp width) idx

/-- The bit that iteration `t` consumes: most significant first (43_binary_exponent_decoder.md R173). -/
def consumedBit (exp : Operand) (width t : Nat) : Bool := decoderBit exp width (width - 1 - t)

/-- The exponent of the command in flight (10_state.md R34: ACTIVE holds W'). -/
def State.exponent (s : State) : Nat :=
  match s.active with
  | some c => exponentOf s.exp c.width
  | none => 0

end Sys2Proof.Machine
end

