-- ==== Sys2Proof/Machine/Flags.lean ====
section
/-!
DEFINITION. The control and status registers as the host reads them, and every computation of a STATUS flag: at
acceptance, at completion, on an error, and on a write-one-to-clear (10_state.md R28 to R31; 60_exceptions.md R220 to
R227). Also the `irq` output (10_state.md R37).
-/

namespace Sys2Proof.Machine

/-- CFG (10_state.md R28): NWORDS in bits 15:0, EMODES = 0b111 in bits 18:16, VERSION = 1 in bits 23:20. -/
def cfgWord (p : Params) : Word := 0#8 ++ 0x1#4 ++ 0#1 ++ 0b111#3 ++ BitVec.ofNat 16 p.nwords

/-- STATUS as the host reads it (10_state.md R30): bits 7:5 and 31:14 read 0. -/
def Status.toWord (st : Status) : Word :=
  0#18 ++ st.lastem ++ st.lastop ++ 0#3 ++ BitVec.ofBool st.wbusy ++ BitVec.ofBool st.ill ++ BitVec.ofBool st.mz ++
    BitVec.ofBool st.done ++ BitVec.ofBool st.busy

/-- CTRL as the host reads it (10_state.md R31): bits 31:1 read 0. -/
def ctrlWord (ie : Bool) : Word := 0#31 ++ BitVec.ofBool ie

/-- STATUS at acceptance (40_command_lifecycle.md R111): ILL and WBUSY stay. -/
def Status.accepted (st : Status) (op : BitVec 4) (em : BitVec 2) : Status :=
  { st with busy := true, done := false, mz := false, lastop := op, lastem := em }

/-- STATUS at completion (40_command_lifecycle.md R113): MZ says whether MOD is zero. -/
def Status.completed (st : Status) (modZero : Bool) : Status :=
  { st with busy := false, done := true, mz := modZero }

/-- `set ILL` (60_exceptions.md R222). -/
def Status.setIll (st : Status) : Status := { st with ill := true }

/-- `set WBUSY` (60_exceptions.md R223). -/
def Status.setWbusy (st : Status) : Status := { st with wbusy := true }

/-- The flags that a completion sets in the cycle of a host write: a clear of them in that cycle loses
(60_exceptions.md R227b). -/
structure SetNow where
  done : Bool
  mz : Bool
deriving DecidableEq, Repr

/-- No completion in this cycle. -/
def SetNow.nothing : SetNow := { done := false, mz := false }

/-- A write of `v` to STATUS (10_state.md R30; 20_memory.md R69): each W1C flag whose bit is 1 is cleared, unless the
hardware sets it in the same cycle (60_exceptions.md R227b). BUSY, LASTOP and LASTEM never change. -/
def Status.w1c (st : Status) (v : Word) (now : SetNow) : Status :=
  { st with
    done := now.done || (st.done && !v.getLsbD 1)
    mz := now.mz || (st.mz && !v.getLsbD 2)
    ill := st.ill && !v.getLsbD 3
    wbusy := st.wbusy && !v.getLsbD 4 }

/-- The `irq` output (10_state.md R37; 60_exceptions.md R225): a level, with no state of its own. -/
def State.irq (s : State) : Bool := s.ie && (s.status.done || s.status.ill || s.status.wbusy)

end Sys2Proof.Machine
end

