-- ==== Sys2Proof/Machine/Ops.lean ====
section
/-!
DEFINITION. The shared operations over the state: issue and acceptance of a command (40_command_lifecycle.md R110,
R111), the two recorded errors (60_exceptions.md R222, R223), the host's view of the register window (20_memory.md
R68, R70), and reset (70_reset_and_hazards.md R250, R251).

The core has no exception entry and no return from one (60_exceptions.md R229, R230): an error is recorded in STATUS by
`State.setIll` or `State.setWbusy`, or answered on the port, and the machine goes on.
-/

namespace Sys2Proof.Machine

/-- The outcome with `f` applied to its next state. -/
def mapNext (f : State → State) (o : Host.Outcome State Fault Refusal) : Host.Outcome State Fault Refusal :=
  match o with
  | .next s => .next (f s)
  | .fault r => .fault r
  | .refused r => .refused r

/-- `any_W` (00_scope.md R12) as the next draw gives it. -/
def State.anyW (s : State) : Nat := Config.anyBits s.params.width s.draws

/-- What the next draw leaves in the `W+1` bits of REM (10_state.md R33): all of them free, the low `W` being `State.anyW`
(notes/assumptions/13.md). -/
def State.anyRem (s : State) : Nat := Config.anyBits (s.params.width + 1) s.draws

/-- ILL is recorded; nothing else changes (60_exceptions.md R222). -/
def State.setIll (s : State) : State := { s with status := s.status.setIll }

/-- WBUSY is recorded; nothing else changes (60_exceptions.md R223). -/
def State.setWbusy (s : State) : State := { s with status := s.status.setWbusy }

/-- What acceptance does for every command (40_command_lifecycle.md R111): STATUS, ACTIVE and CYC. -/
def State.beginCommand (s : State) (o : Op) (m : EMode) : State :=
  { s with
    status := s.status.accepted o.code m.code
    active := some { op := o, width := m.width s.params }
    cyc := latencyOf s.params o m }

/-- `Accept` (40_command_lifecycle.md R111), with the engine's start for a MODEXP
(44_square_and_multiply_engine.md R191: ACC <- one, ITER <- W', PHASE <- EXP_SQUARE). -/
def State.accept (s : State) (o : Op) (m : EMode) : State :=
  match o with
  | .modmul => { s.beginCommand o m with phase := .modmul }
  | .modexp => { s.beginCommand o m with phase := .expSquare, acc := 1#2048, iter := m.width s.params }

/-- The issue of a legal command (40_command_lifecycle.md R110): dropped with WBUSY while one is in flight, accepted
otherwise. -/
def State.issue (s : State) (o : Op) (m : EMode) : State :=
  if s.status.busy then s.setWbusy else s.accept o m

/-- `OperandWrite(X, j, v)` (20_memory.md R70): dropped with WBUSY while a command is in flight. -/
def State.operandWrite (s : State) (r : OperandReg) (j : Nat) (v : Word) : State :=
  if s.status.busy then s.setWbusy
  else s.setReg r (setWord s.params.width (s.reg r) j v)

/-- `MemRead(a, 4)` (20_memory.md R68): what an aligned offset of the register window reads as. -/
def State.windowRead (s : State) (a : Offset) : Word :=
  match target s.params.nwords a with
  | .cfg => cfgWord s.params
  | .cmd => 0#32
  | .status => s.status.toWord
  | .ctrl => ctrlWord s.ie
  | .operand r j => wordOf s.params.width (s.reg r) j
  | .unmapped => 0#32

/-- A free value for a `W`-bit register, the `k`-th of this step. -/
def State.anyOperand (s : State) (k : Nat) : Operand :=
  BitVec.ofNat 2048 (Config.anyBits s.params.width (s.draws + k))

/-- Reset (70_reset_and_hazards.md R250): the control state takes 10_state.md R38's values and a command in flight is
abandoned. The operand registers, RESULT and the hidden registers are unspecified afterwards (R39, R251): each is a free
value (notes/assumptions/5.md). The schedule is the environment's and goes on. -/
def State.applyReset (s : State) : State :=
  { s with
    opa := s.anyOperand 0
    opb := s.anyOperand 1
    mod := s.anyOperand 2
    exp := s.anyOperand 3
    result := s.anyOperand 4
    status := Status.reset
    ie := false
    phase := .idle
    cyc := 0
    iter := 0
    active := none
    acc := s.anyOperand 5
    sq := s.anyOperand 6
    sqb := s.anyOperand 7
    prod := BitVec.ofNat 4096 (Config.anyBits (2 * s.params.width) (s.draws + 8))
    rem := BitVec.ofNat 2049 (Config.anyBits (s.params.width + 1) (s.draws + 9))
    rsp := none
    draws := s.draws + 10 }

end Sys2Proof.Machine
end

