-- ==== Sys2Proof/Machine/Modmul.lean ====
section
/-!
DEFINITION. The modular_multiplier unit (42_modular_multiplier.md): its function, its reference algorithm, one use of
it on the internal registers, and the MODMUL command.
-/

namespace Sys2Proof.Machine

/-- `ModMul(a, b, m)` (42_modular_multiplier.md R151): exact for `m ≥ 1`; `anyW`, a free value, for `m = 0` (R155). -/
def modMul (a b m anyW : Nat) : Nat := if m = 0 then anyW else multiplyFull a b % m

/-- One step of the reference reduction (42_modular_multiplier.md R152): shift in a bit of PROD, always subtract, keep
the difference only if it did not borrow. -/
def modMulStep (w prod m j rem : Nat) : Nat :=
  let shifted := 2 * rem + (bitOf prod j).toNat
  let diff := subWithBorrow (w + 1) shifted m false
  select (!diff.2) diff.1 shifted

/-- The reference loop (42_modular_multiplier.md R152), over the bits of PROD below `n`, from the most significant. -/
def modMulLoop (w prod m : Nat) : (n rem : Nat) → Nat
  | 0, rem => rem
  | j + 1, rem => modMulLoop w prod m j (modMulStep w prod m j rem)

/-- `ModMulRef(a, b, m)` (42_modular_multiplier.md R152): exactly `2W` steps, whatever the data. -/
def modMulRef (w a b m : Nat) : Nat := modMulLoop w (multiplyFull a b) m (2 * w) 0 % 2 ^ w

/-- One use of the unit: PROD takes the exact product, REM the remainder (42_modular_multiplier.md R150, R152; 10_state.md
R33). With a modulus of 0 (R155) each of REM's `W+1` bits is free. -/
def State.multiply (s : State) (a b : Operand) : State :=
  { s with
    prod := BitVec.ofNat 4096 (multiplyFull a.toNat b.toNat)
    rem := BitVec.ofNat 2049 (modMul a.toNat b.toNat s.mod.toNat s.anyRem)
    draws := s.draws + 1 }

/-- The unit's result port: `REM[W-1:0]` (42_modular_multiplier.md R150, R152). -/
def State.unitResult (s : State) : Operand := BitVec.ofNat 2048 (s.rem.toNat % 2 ^ s.params.width)

/-- The issue of MODMUL (42_modular_multiplier.md R156; 40_command_lifecycle.md R110, R111). The product comes at
completion, `State.complete` (R116: a command is two events; notes/assumptions/10.md). -/
def execModmul (s : State) : Host.Outcome State Fault Refusal := .next (s.issue .modmul .full)

end Sys2Proof.Machine
end

