-- ==== Sys2Proof/Machine/Modexp.lean ====
section
/-!
DEFINITION. The square_and_multiply_engine (44_square_and_multiply_engine.md): its function, its internal operations on
the hidden registers, and the three MODEXP commands.
-/

namespace Sys2Proof.Machine

/-- The loop of 44_square_and_multiply_engine.md R190 over the exponent bits below `n`, from the most significant: square,
multiply by the base, select. -/
def modExpLoop (base e m anyW : Nat) : (n acc : Nat) → Nat
  | 0, acc => acc
  | i + 1, acc =>
    let sq := modMul acc acc m anyW
    let sqb := modMul sq base m anyW
    modExpLoop base e m anyW i (select (bitOf e i) sqb sq)

/-- `ModExp(base, e, W', m)` (44_square_and_multiply_engine.md R190): `W'` iterations from an accumulator of 1. For
`m = 0` the result is the free value `anyW` (R197). -/
def modExp (base e width m anyW : Nat) : Nat := modExpLoop base e m anyW width 1

/-- The first half of an iteration (44_square_and_multiply_engine.md R192): SQ <- ModMul(ACC, ACC, m). -/
def State.squareStep (s : State) : State :=
  let u := s.multiply s.acc s.acc
  { u with sq := u.unitResult, phase := .expMultiply }

/-- The second half of an iteration (44_square_and_multiply_engine.md R192), with `i = ITER - 1`:
SQB <- ModMul(SQ, base, m), always performed, ACC <- Select(bit, SQB, SQ), ITER <- ITER - 1. PHASE becomes EXP_SQUARE for the
next iteration; when ITER reaches 0 none begins, and PHASE keeps R192's last write to it, EXP_MULTIPLY (DEDUCED,
notes/assumptions/25.md). -/
def State.multiplyStep (s : State) (i : Nat) : State :=
  let u := s.multiply s.sq s.opa
  { u with
    sqb := u.unitResult
    acc := if bitOf s.exponent i then u.unitResult else s.sq
    iter := i
    phase := if i = 0 then .expMultiply else .expSquare }

/-- The next internal operation of the engine in flight (40_command_lifecycle.md R112): one use of the multiplier. PHASE
and ITER say which; an engine that has consumed every bit waits for completion (44_square_and_multiply_engine.md R193). MODMUL's one
use (42_modular_multiplier.md R150) is in its completion, `State.finish`. -/
def State.work (s : State) : State :=
  match s.phase, s.iter with
  | .idle, _ => s
  | .modmul, _ => s
  | .expSquare, 0 => s
  | .expSquare, _ + 1 => s.squareStep
  | .expMultiply, 0 => s
  | .expMultiply, i + 1 => s.multiplyStep i

/-- The next `n` internal operations. -/
def State.workFor : (n : Nat) → State → State
  | 0, s => s
  | n + 1, s => State.workFor n s.work

/-- The internal operations an engine has yet to perform (44_square_and_multiply_engine.md R195: two uses of the
multiplier an iteration). -/
def State.workLeft (s : State) : Nat :=
  match s.phase with
  | .idle => 0
  | .modmul => 0
  | .expSquare => 2 * s.iter
  | .expMultiply => 2 * s.iter - 1

/-- The unit in flight performs all of its algorithm that is left (42_modular_multiplier.md R150: MODMUL uses the
multiplier once; 44_square_and_multiply_engine.md R193). -/
def State.finish (s : State) : State :=
  match s.phase with
  | .idle => s
  | .modmul => s.multiply s.opa s.opb
  | .expSquare => s.workFor s.workLeft
  | .expMultiply => s.workFor s.workLeft

/-- The issue of MODEXP, exponent width W (44_square_and_multiply_engine.md R198). -/
def execModexp (s : State) : Host.Outcome State Fault Refusal := .next (s.issue .modexp .full)

/-- The issue of MODEXP.E64 (44_square_and_multiply_engine.md R199). -/
def execModexpE64 (s : State) : Host.Outcome State Fault Refusal := .next (s.issue .modexp .e64)

/-- The issue of MODEXP.E32 (44_square_and_multiply_engine.md R200). -/
def execModexpE32 (s : State) : Host.Outcome State Fault Refusal := .next (s.issue .modexp .e32)

end Sys2Proof.Machine
end

