-- ==== Sys2Proof/Machine/Lifecycle.lean ====
section
/-!
DEFINITION. From acceptance to completion (40_command_lifecycle.md R112, R113, R119): the result of a command, its
completion, and the clock edge that brings it.
-/

namespace Sys2Proof.Machine

/-- `Result(op, W')` (40_command_lifecycle.md R119). For MOD = 0 it is `anyW`. -/
def State.commandResult (s : State) (c : Active) (anyW : Nat) : Nat :=
  match c.op with
  | .modmul => modMul s.opa.toNat s.opb.toNat s.mod.toNat anyW
  | .modexp => modExp s.opa.toNat (exponentOf s.exp c.width) c.width s.mod.toNat anyW

/-- `Complete()` (40_command_lifecycle.md R113) on the architectural registers: RESULT, STATUS, PHASE, ACTIVE, ITER and
CYC, with the free value of a zero modulus drawn here (93_implementation_defined.md I1). -/
def State.retire (s : State) (c : Active) : State :=
  { s with
    result := BitVec.ofNat 2048 (s.commandResult c s.anyW)
    status := s.status.completed (eqBit s.mod.toNat 0)
    phase := .idle
    active := none
    iter := 0
    cyc := 0
    draws := s.draws + 1 }

/-- Completion of the command in flight: the unit has by then performed every internal operation of its algorithm
(44_square_and_multiply_engine.md R193, R195; notes/assumptions/13.md), and the command retires. -/
def State.complete (s : State) (c : Active) : State := s.finish.retire c

/-- One clock edge (40_command_lifecycle.md R112): CYC counts down while a command is in flight, and the command completes
in the cycle it reaches 0. An idle core keeps its state (60_exceptions.md R234). -/
def State.clock (s : State) : State :=
  match s.active with
  | none => s
  | some c => if s.cyc ≤ 1 then s.complete c else { s with cyc := s.cyc - 1 }

end Sys2Proof.Machine
end

