-- ==== Sys2Proof/Machine/Transact.lean ====
section
/-!
DEFINITION. The host's transactions (20_memory.md R67 to R71) and the events a step can be.
-/

namespace Sys2Proof.Machine

/-- `IssueCommand(v)` (40_command_lifecycle.md R110): the BUSY check, then legality, then the command. A word that
reaches a busy core is not decoded. -/
def issueCommand (v : Word) (s : State) : Host.Outcome State Fault Refusal :=
  if s.status.busy then .next s.setWbusy
  else
    match decode v with
    | .illegal _ => .next s.setIll
    | .command i => exec i s

/-- `MemWrite(a, 4, v)` (20_memory.md R69), with the flags the hardware sets in the same cycle. -/
def hostWrite (a : Offset) (v : Word) (now : SetNow) (s : State) : Host.Outcome State Fault Refusal :=
  match target s.params.nwords a with
  | .cfg => .next s
  | .cmd => issueCommand v s
  | .status => .next { s with status := s.status.w1c v now }
  | .ctrl => .next { s with ie := v.getLsbD 0 }
  | .operand .result _ => .next s
  | .operand r j => .next (s.operandWrite r j v)
  | .unmapped => .next s

/-- The state with the port answering `r`. -/
def State.respond (s : State) (r : Response) : State := { s with rsp := some r }

/-- One host transaction, whole (20_memory.md R75): the access check first (60_exceptions.md R227a), then the read or the
write. A read changes nothing but the response (20_memory.md R68). -/
def transact (t : Transaction) (now : SetNow) (s : State) : Host.Outcome State Fault Refusal :=
  if !t.accessOk then .next (s.respond Response.busError)
  else if t.write then hostWrite t.addr t.wdata now (s.respond Response.written)
  else .next (s.respond { rdata := s.windowRead t.addr, err := false })

/-- The flags that the clock edge from `s` sets: those of a completion, if there is one (40_command_lifecycle.md R113). -/
def State.setByClock (s : State) : SetNow :=
  { done := s.status.busy && !s.clock.status.busy
    mz := s.status.busy && !s.clock.status.busy && s.clock.status.mz }

/-- A clock edge and a transaction in one cycle (20_memory.md R76; 60_exceptions.md R227, R228). A command in flight sees
the edge, before or after the transaction; the edge's own sets of a flag win over the transaction's clears. An idle core has
no edge to see, and a command accepted in this cycle counts from the next one. -/
def sameCycle (t : Transaction) (first : First) (s : State) : Host.Outcome State Fault Refusal :=
  if s.status.busy then
    match first with
    | .transaction => mapNext State.clock (transact t SetNow.nothing s)
    | .clock => transact t s.setByClock s.clock
  else transact t SetNow.nothing s

/-- What an event does. -/
def applyEvent (e : Event) (s : State) : Host.Outcome State Fault Refusal :=
  match e with
  | .txn t => transact t SetNow.nothing s
  | .tick => .next s.clock
  | .cycle t first => sameCycle t first s
  | .work => .next s.work
  | .reset => .next s.applyReset

/-- The event a schedule gives next: its first; a clock edge when it is empty, the host being silent
(notes/assumptions/7.md). -/
def nextEvent (schedule : List Event) : Event :=
  match schedule with
  | [] => .tick
  | e :: _ => e

/-- The state without the event it is about to see. -/
def State.popEvent (s : State) : State := { s with schedule := s.schedule.tail }

/-- The host's write of a command word to CMD: how a command reaches the core (40_command_lifecycle.md R110). -/
def commandWrite (v : Word) : Transaction := Transaction.store 0x004#12 v

end Sys2Proof.Machine
end

