-- ==== Sys2Proof/Machine/Step.lean ====
section
/-!
DEFINITION. One step: the first event of the schedule happens to the core. With an empty schedule the clock runs.
-/

namespace Sys2Proof.Machine

/-- One step of the machine. -/
def step (s : State) : Host.Outcome State Fault Refusal := applyEvent (nextEvent s.schedule) s.popEvent

/-- `s` with a command word where the next step takes one from: the host's next transaction writes it to CMD. The core
fetches nothing (10_state.md R27); a program reaches it as writes to CMD (notes/assumptions/11.md). -/
def State.withFetchWord (s : State) (nbits w : Nat) : State :=
  { s with schedule := .txn (commandWrite (tableWord nbits w)) :: s.schedule }

end Sys2Proof.Machine
end

