-- ==== Sys2Proof/Machine/HostProgram.lean ====
section
/-!
DEFINITION. The host-program notation of 30_encoding.md R97: statements and pseudo-instructions, and the transactions
they expand to. They are not commands: the host performs them on the port.
-/

namespace Sys2Proof.Machine

/-- The least `k` with `value < 2^(32k)`, among `0 .. n`: `ceil(bitlen(value)/32)` for a value of at most `n` words
(30_encoding.md R97). -/
def wordsNeeded (n value : Nat) : Nat :=
  match n with
  | 0 => 0
  | k + 1 => if value < 2 ^ (32 * k) then wordsNeeded k value else k + 1

/-- A statement of the notation. -/
inductive HostStmt where
  /-- `WR off, imm32` -/
  | wr (off : Offset) (v : Word)
  /-- `RD off -> name` -/
  | rd (off : Offset)
  /-- `CMD mnem` -/
  | cmd (i : Instr)
  /-- `CLR mask` -/
  | clr (mask : Word)
  /-- `POLL`, the run of it that reads STATUS `n` times (notes/assumptions/22.md). -/
  | poll (n : Nat)
  /-- `LD X, value` -/
  | ld (r : OperandReg) (value : Operand)
  /-- `LDX X, value` -/
  | ldx (r : OperandReg) (value : Operand)
  /-- `ST RESULT -> name` -/
  | st
  /-- `RUN mnem`, with the number of its polls. -/
  | run (i : Instr) (n : Nat)
deriving DecidableEq, Repr

/-- The offset of word `j` of a register's window, `base(X) + 4*j` (20_memory.md R62). -/
def wordOffset (r : OperandReg) (j : Nat) : Offset := BitVec.ofNat 12 (r.base + 4 * j)

/-- The write of word `j` of `value` to its place. -/
def loadWord (width : Nat) (r : OperandReg) (value : Operand) (j : Nat) : Transaction :=
  Transaction.store (wordOffset r j) (wordOf width value j)

/-- The transactions a statement stands for, in order (30_encoding.md R97). -/
def HostStmt.expand (p : Params) (c : HostStmt) : List Transaction :=
  match c with
  | .wr off v => [Transaction.store off v]
  | .rd off => [Transaction.read off]
  | .cmd i => [commandWrite (encode i)]
  | .clr mask => [Transaction.store 0x008#12 mask]
  | .poll n => List.replicate n (Transaction.read 0x008#12)
  | .ld r value => (List.range p.nwords).map (loadWord p.width r value)
  | .ldx r value =>
    (List.range' (p.nwords - wordsNeeded p.nwords value.toNat) (wordsNeeded p.nwords value.toNat)).map
      (loadWord p.width r value)
  | .st => (List.range p.nwords).map fun j => Transaction.read (wordOffset .result j)
  | .run i n => commandWrite (encode i) :: List.replicate n (Transaction.read 0x008#12)

/-- A host program as a schedule: its transactions one after another, with no clock edge between them. Where the edges fall is
open (40_command_lifecycle.md R116; 60_exceptions.md R228), and this is one placement of them: DESIGN CHOICE,
notes/assumptions/26.md. A command accepted in it is thus still in flight at the program's end, and completes afterwards. -/
def scheduleOf (p : Params) (program : List HostStmt) : List Event :=
  program.flatMap fun c => (c.expand p).map Event.txn

end Sys2Proof.Machine
end

