-- ==== Sys2Proof/Safety.lean ====
section
/-!
DEFINITION. The terms the claims use: the invariant of the core, the invariant of the engine's hidden registers, what a
command leaves in RESULT in the spec's own arithmetic, and the part of the state that decides what happens when.
-/

namespace Sys2Proof.Machine

/-- A command `c` of exponent mode `m` is in flight (10_state.md R30, R34, R35; 40_command_lifecycle.md R111, R118). An engine
in EXP_SQUARE has an exponent bit left (44_square_and_multiply_engine.md R192). -/
structure State.InFlight (s : State) (c : Active) (m : EMode) : Prop where
  width : c.width = m.width s.params
  lastop : s.status.lastop = c.op.code
  lastem : s.status.lastem = m.code
  cycPos : 0 < s.cyc
  cycLe : s.cyc ≤ latencyOf s.params c.op m
  iterLe : s.iter ≤ c.width
  modmul : c.op = .modmul → m = .full ∧ s.phase = .modmul ∧ s.iter = 0
  modexp : c.op = .modexp → (s.phase = .expSquare ∧ 0 < s.iter) ∨ s.phase = .expMultiply

/-- The invariant of the core: the parameters are admissible, every register keeps its width (10_state.md R20, R33, R34),
and BUSY, PHASE and ACTIVE agree (R35). -/
structure State.Inv (s : State) : Prop where
  params : s.params.Wf
  operands : ∀ r, (s.reg r).toNat < 2 ^ s.params.width
  acc : s.acc.toNat < 2 ^ s.params.width
  sq : s.sq.toNat < 2 ^ s.params.width
  sqb : s.sqb.toNat < 2 ^ s.params.width
  prod : s.prod.toNat < 2 ^ (2 * s.params.width)
  rem : s.rem.toNat < 2 ^ (s.params.width + 1)
  busyPhase : s.status.busy = true ↔ s.phase ≠ .idle
  busyActive : s.status.busy = true ↔ s.active ≠ none
  idle : s.status.busy = false → s.cyc = 0 ∧ s.iter = 0
  busyFlags : s.status.busy = true → s.status.done = false ∧ s.status.mz = false
  inFlight : ∀ c, s.active = some c → ∃ m, s.InFlight c m

/-- The invariant of the engine (44_square_and_multiply_engine.md R196): with `ITER = i` bits of the exponent `e` left, ACC is
`base ^ (e / 2^i) mod m`, but for the initial 1 (R191); between the halves of an
iteration SQ is its square modulo `m`. -/
def State.EngineInv (s : State) : Prop :=
  ∀ c, s.active = some c → c.op = .modexp → s.mod.toNat ≠ 0 →
    s.acc.toNat =
      (if s.iter = c.width then 1
       else s.opa.toNat ^ (exponentOf s.exp c.width / 2 ^ s.iter) % s.mod.toNat) ∧
    (s.phase = .expMultiply → 0 < s.iter → s.sq.toNat = s.acc.toNat * s.acc.toNat % s.mod.toNat)

/-- What the command in flight leaves in RESULT when MOD is not zero, in the spec's arithmetic: `(a * b) mod m`
(42_modular_multiplier.md R151), or `base ^ e mod m` (44_square_and_multiply_engine.md R196). -/
def State.expectedResult (s : State) (c : Active) : Nat :=
  match c.op with
  | .modmul => s.opa.toNat * s.opb.toNat % s.mod.toNat
  | .modexp => s.opa.toNat ^ (s.exp.toNat % 2 ^ c.width) % s.mod.toNat

/-- The operation of a command. -/
def opOf (i : Instr) : Op :=
  match i with
  | .modmul => .modmul
  | .modexp => .modexp
  | .modexpE64 => .modexp
  | .modexpE32 => .modexp

/-- The exponent mode of a command (30_encoding.md R92). -/
def emodeOf (i : Instr) : EMode :=
  match i with
  | .modmul => .full
  | .modexp => .full
  | .modexpE64 => .e64
  | .modexpE32 => .e32

/-- The event has a clock edge: CYC counts in it, and a command may complete (40_command_lifecycle.md R112). -/
def Event.hasEdge (e : Event) : Bool :=
  match e with
  | .tick => true
  | .cycle _ _ => true
  | .txn _ => false
  | .work => false
  | .reset => false

/-- The four operand registers that a command reads or the host writes: all but RESULT (10_state.md R26). -/
def sameOperands (s t : State) : Prop := t.opa = s.opa ∧ t.opb = s.opb ∧ t.mod = s.mod ∧ t.exp = s.exp

/-- A command that has not completed: it is in flight, with the operands it was accepted with, and RESULT is untouched
(40_command_lifecycle.md R117; 70_reset_and_hazards.md R254). -/
def stillInFlight (s t : State) (c : Active) : Prop :=
  t.active = some c ∧ t.status.busy = true ∧ sameOperands s t ∧ t.result = s.result

/-- The transaction writes a word to CMD that decodes to `i` (40_command_lifecycle.md R110). -/
def Transaction.commands (t : Transaction) (i : Instr) : Prop :=
  t.accessOk = true ∧ t.write = true ∧ t.addr = 0x004#12 ∧ decode t.wdata = .command i

/-- Two states agree on everything but operand data: the registers' contents, MZ, and the data of a response. What is left
decides when things happen: BUSY, DONE and the other flags, PHASE, ITER, CYC, ACTIVE, `irq`, and whether a response is an
error (42_modular_multiplier.md R154b; 44_square_and_multiply_engine.md R207). -/
structure SameControl (s t : State) : Prop where
  params : t.params = s.params
  busy : t.status.busy = s.status.busy
  done : t.status.done = s.status.done
  ill : t.status.ill = s.status.ill
  wbusy : t.status.wbusy = s.status.wbusy
  lastop : t.status.lastop = s.status.lastop
  lastem : t.status.lastem = s.status.lastem
  ie : t.ie = s.ie
  phase : t.phase = s.phase
  cyc : t.cyc = s.cyc
  iter : t.iter = s.iter
  active : t.active = s.active
  response : t.rsp.map Response.err = s.rsp.map Response.err
  schedule : t.schedule = s.schedule

end Sys2Proof.Machine
end

