-- ==== Sys2Proof/Certificates/Slice0/Obligations.lean ====
section
/-!
DEFINITION. The statements about the model, for the provers. Each docstring names the rule it formalises. A statement about
a state that no run reaches takes the invariant `State.Inv` as a premise; that every step keeps it is a statement of its own.
No statement rests on a value of a free value or of `State.draws`.
-/

open Sys2Proof Sys2Proof.Machine

/-! ### Encoding -/

/-- The words of 95_test_vectors.md L2-C1 to L2-C11, written out: what each decodes to. -/
def Obligations.CommandWordsDecode : Prop :=
  decode 0b00000000000000000000000000000001#32 = .command .modmul ∧
  decode 0b00000000000000000000000000000010#32 = .command .modexp ∧
  decode 0b00000000000000000000000000010010#32 = .command .modexpE64 ∧
  decode 0b00000000000000000000000000100010#32 = .command .modexpE32 ∧
  decode 0x00000000#32 = .illegal .reservedOp ∧
  decode 0x00000003#32 = .illegal .reservedOp ∧
  decode 0x0000000F#32 = .illegal .reservedOp ∧
  decode 0x00000032#32 = .illegal .reservedEmode ∧
  decode 0x00000011#32 = .illegal .modmulWithEmode ∧
  decode 0x00000042#32 = .illegal .reservedBitSet ∧
  decode 0x80000001#32 = .illegal .reservedBitSet

/-- R93: exactly four words are legal. R95: every other word is illegal. -/
def Obligations.ExactlyFourWordsAreLegal : Prop :=
  ∀ v : Word,
    (legal v = true ↔ v = 0x00000001#32 ∨ v = 0x00000002#32 ∨ v = 0x00000012#32 ∨ v = 0x00000022#32) ∧
    (legal v = true ↔ ∃ i, decode v = .command i) ∧
    (legal v = false ↔ ∃ why, decode v = .illegal why)

/-- Decode and encode agree in both directions: a word decodes to a command exactly when it is the command's word (R96,
R98). -/
def Obligations.DecodeAgreesWithEncode : Prop :=
  ∀ (v : Word) (i : Instr), decode v = .command i ↔ encode i = v

/-! ### Issue and acceptance -/

/-- A step whose event is a write of a command's word to CMD is that command's `exec`, after the schedule has moved on and
the port has answered the write (R110, R69). The host's `withFetchWord` is such a step. -/
def Obligations.StepRunsTheCommandWritten : Prop :=
  (∀ (s : State) (rest : List Event) (w : Word) (i : Instr),
    s.schedule = .txn { write := true, addr := 0x004#12, size := 2#2, wdata := w } :: rest →
    decode w = .command i →
    step s = exec i { s with schedule := rest, rsp := some { rdata := 0#32, err := false } }) ∧
  (∀ (s : State) (w : Nat) (i : Instr),
    decodeTableWord 32 w = some i →
    step (s.withFetchWord 32 w) = exec i { s with rsp := some { rdata := 0#32, err := false } })

/-- R111 for MODMUL: from every idle state, whatever the operands, it is accepted, and exactly these fields change. -/
def Obligations.ModmulIsAccepted : Prop :=
  ∀ s : State, s.status.busy = false →
    exec .modmul s = .next { s with
      status := { s.status with busy := true, done := false, mz := false, lastop := 0x1#4, lastem := 0b00#2 }
      active := some { op := .modmul, width := s.params.width }
      phase := .modmul
      cyc := s.params.latModmul }

/-- R111 and R191 for the three MODEXP commands: from every idle state they are accepted, with the engine started from an
accumulator of 1 and W' iterations to go. -/
def Obligations.ModexpIsAccepted : Prop :=
  ∀ s : State, s.status.busy = false →
    exec .modexp s = .next { s with
      status := { s.status with busy := true, done := false, mz := false, lastop := 0x2#4, lastem := 0b00#2 }
      active := some { op := .modexp, width := s.params.width }
      phase := .expSquare
      cyc := s.params.latModexpFull
      acc := 1#2048
      iter := s.params.width } ∧
    exec .modexpE64 s = .next { s with
      status := { s.status with busy := true, done := false, mz := false, lastop := 0x2#4, lastem := 0b01#2 }
      active := some { op := .modexp, width := 64 }
      phase := .expSquare
      cyc := s.params.latModexpE64
      acc := 1#2048
      iter := 64 } ∧
    exec .modexpE32 s = .next { s with
      status := { s.status with busy := true, done := false, mz := false, lastop := 0x2#4, lastem := 0b10#2 }
      active := some { op := .modexp, width := 32 }
      phase := .expSquare
      cyc := s.params.latModexpE32
      acc := 1#2048
      iter := 32 }

/-- R115: a command issued while one is in flight is dropped, whatever word it is (it is not decoded: R110), and only WBUSY
records it. -/
def Obligations.CommandWhileBusyIsDropped : Prop :=
  (∀ (i : Instr) (s : State), s.status.busy = true →
    exec i s = .next { s with status := { s.status with wbusy := true } }) ∧
  (∀ (s : State) (rest : List Event) (w : Word), s.status.busy = true →
    s.schedule = .txn (Transaction.store 0x004#12 w) :: rest →
    step s = .next { s with
      status := { s.status with wbusy := true }
      schedule := rest
      rsp := some { rdata := 0#32, err := false } })

/-- The frame of the four commands: what `exec` leaves unchanged. Their destination, RESULT, is written at completion, not
here; acceptance may write STATUS's BUSY, DONE, MZ, LASTOP and LASTEM, PHASE, CYC, ACTIVE, and for a MODEXP ACC and ITER
(R111, R191), and a drop writes WBUSY. Every word of the window but STATUS reads as before. -/
def Obligations.CommandsLeaveTheRestUnchanged : Prop :=
  ∀ (i : Instr) (s t : State), exec i s = .next t →
    (t.params = s.params ∧ sameOperands s t ∧ t.result = s.result ∧ t.ie = s.ie ∧ t.status.ill = s.status.ill ∧
      t.sq = s.sq ∧ t.sqb = s.sqb ∧ t.prod = s.prod ∧ t.rem = s.rem ∧
      t.rsp = s.rsp ∧ t.schedule = s.schedule ∧ t.draws = s.draws) ∧
    (i = .modmul → t.acc = s.acc ∧ t.iter = s.iter) ∧
    (s.status.busy = false → t.status.wbusy = s.status.wbusy) ∧
    (s.status.busy = true → t.phase = s.phase ∧ t.cyc = s.cyc ∧ t.active = s.active ∧ t.acc = s.acc ∧ t.iter = s.iter ∧
      t.status.busy = true ∧ t.status.done = s.status.done ∧ t.status.mz = s.status.mz ∧
      t.status.lastop = s.status.lastop ∧ t.status.lastem = s.status.lastem) ∧
    (∀ a : Offset, a ≠ 0x008#12 → t.windowRead a = s.windowRead a)

/-! ### Completion -/

/-- R113, R119: at the clock edge at which CYC reaches 0 the command in flight completes, whatever is scheduled after it
(R228). With MOD not zero RESULT takes `(a * b) mod m` or `base ^ e mod m`; STATUS, PHASE, ACTIVE, ITER and CYC take R113's
values; nothing else that the host can see changes. -/
def Obligations.CompletionWritesResultAndStatus : Prop :=
  ∀ (s : State) (c : Active), s.Inv → nextEvent s.schedule = .tick → s.active = some c → s.cyc = 1 → s.mod ≠ 0#2048 →
    ∃ t, step s = .next t ∧
      t.result.toNat =
        (match c.op with
        | .modmul => s.opa.toNat * s.opb.toNat % s.mod.toNat
        | .modexp => s.opa.toNat ^ (s.exp.toNat % 2 ^ c.width) % s.mod.toNat) ∧
      t.status = { s.status with busy := false, done := true, mz := false } ∧
      t.phase = .idle ∧ t.active = none ∧ t.iter = 0 ∧ t.cyc = 0 ∧
      t.params = s.params ∧ sameOperands s t ∧ t.ie = s.ie ∧ t.rsp = s.rsp ∧ t.schedule = s.schedule.tail ∧
      ∀ a : Offset, a ≠ 0x008#12 → (∀ j, target s.params.nwords a ≠ .operand .result j) → t.windowRead a = s.windowRead a

/-- R224: with MOD zero the command completes all the same, MZ is set, and RESULT is some W-bit value. -/
def Obligations.ZeroModulusCompletesWithMz : Prop :=
  ∀ (s : State) (c : Active), s.Inv → nextEvent s.schedule = .tick → s.active = some c → s.cyc = 1 → s.mod = 0#2048 →
    ∃ t, step s = .next t ∧
      t.status = { s.status with busy := false, done := true, mz := true } ∧
      t.result.toNat < 2 ^ s.params.width ∧
      t.phase = .idle ∧ t.active = none ∧ t.iter = 0 ∧ t.cyc = 0 ∧
      t.params = s.params ∧ sameOperands s t ∧ t.ie = s.ie ∧ t.rsp = s.rsp ∧ t.schedule = s.schedule.tail ∧
      ∀ a : Offset, a ≠ 0x008#12 → (∀ j, target s.params.nwords a ≠ .operand .result j) → t.windowRead a = s.windowRead a

/-- A zero modulus leaves the result free: ModMul and ModExp then return the free value, whatever it is (R155, R197). -/
def Obligations.ZeroModulusResultIsFree : Prop :=
  ∀ a b e w x : Nat, modMul a b 0 x = x ∧ (0 < w → modExp a e w 0 x = x)

/-- The headline of the four commands (R156, R198, R199, R200): from every idle state with MOD not zero and a silent host,
`exec` accepts the command; during exactly the command's latency BUSY stays set and RESULT keeps its old value; then RESULT
holds the command's value of the operands, reduced below MOD, and STATUS is R113's. That a step of the silent host is a clock
edge, so that the latency counts steps, is the model's choice (log entry 7). -/
def Obligations.EveryCommandRunsToItsResult : Prop :=
  ∀ (i : Instr) (s : State), s.Inv → s.status.busy = false → s.schedule = [] → s.mod ≠ 0#2048 →
    ∃ a t, exec i s = .next a ∧
      Host.Core.run core
        (match i with
        | .modmul => s.params.latModmul
        | .modexp => s.params.latModexpFull
        | .modexpE64 => s.params.latModexpE64
        | .modexpE32 => s.params.latModexpE32) a = .next t ∧
      t.result.toNat =
        (match i with
        | .modmul => s.opa.toNat * s.opb.toNat % s.mod.toNat
        | .modexp => s.opa.toNat ^ s.exp.toNat % s.mod.toNat
        | .modexpE64 => s.opa.toNat ^ (s.exp.toNat % 2 ^ 64) % s.mod.toNat
        | .modexpE32 => s.opa.toNat ^ (s.exp.toNat % 2 ^ 32) % s.mod.toNat) ∧
      t.result.toNat < s.mod.toNat ∧
      t.status = { s.status with
        busy := false
        done := true
        mz := false
        lastop := (opOf i).code
        lastem := (emodeOf i).code } ∧
      sameOperands s t ∧ t.params = s.params ∧ t.ie = s.ie ∧
      ∀ (k : Nat) (u : State), k < latencyOf s.params (opOf i) (emodeOf i) → Host.Core.run core k a = .next u →
        u.status.busy = true ∧ u.result = s.result

/-- R112, R113, R117: whatever happens next short of reset to a command in flight. Without a clock edge it stays in flight
with its operands, RESULT and CYC. A clock edge, alone or in one cycle with a transaction, lowers CYC by one; at CYC = 1 it
completes the command: with MOD not zero RESULT takes the command's value of the operands it was accepted with, MZ says
whether MOD is zero, and DONE is 1, unless a command is accepted in that very cycle, after the completion. -/
def Obligations.CommandInFlightUsesOperandsOfAcceptance : Prop :=
  ∀ (s t : State) (c : Active), s.Inv → s.active = some c → step s = .next t → nextEvent s.schedule ≠ .reset →
    ((nextEvent s.schedule).hasEdge = false → stillInFlight s t c ∧ t.cyc = s.cyc) ∧
    ((nextEvent s.schedule).hasEdge = true → 1 < s.cyc → stillInFlight s t c ∧ t.cyc + 1 = s.cyc) ∧
    ((nextEvent s.schedule).hasEdge = true → s.cyc = 1 →
      (s.mod ≠ 0#2048 → t.result.toNat = s.expectedResult c) ∧
      ((t.active = none ∧ t.status.busy = false ∧ t.status.done = true ∧
          t.status.mz = decide (s.mod = 0#2048) ∧
          t.status.lastop = s.status.lastop ∧ t.status.lastem = s.status.lastem) ∨
       (∃ tr i, nextEvent s.schedule = .cycle tr .clock ∧ tr.commands i ∧
          t.active = some { op := opOf i, width := (emodeOf i).width s.params } ∧
          t.status.busy = true ∧ t.status.done = false ∧ t.status.mz = false)))

/-- Fairness (R116, R118): a command in flight that no reset abandons reaches the clock edge that completes it within as many
steps as the schedule has events and CYC has cycles left, with the operands it was accepted with and RESULT untouched. What
that edge does: `CompletionWritesResultAndStatus`, `CommandInFlightUsesOperandsOfAcceptance`. That an empty schedule is a clock
edge is the model's choice (log entry 7). -/
def Obligations.CommandInFlightCompletes : Prop :=
  ∀ (s : State) (c : Active), s.Inv → s.active = some c → Event.reset ∉ s.schedule →
    ∃ k u, k ≤ s.schedule.length + s.cyc ∧ Host.Core.run core k s = .next u ∧
      u.Inv ∧ stillInFlight s u c ∧ u.cyc = 1 ∧ (nextEvent u.schedule).hasEdge = true

/-- R111, last paragraph: after an accepted command, no step but reset leads to BUSY = 0 with DONE = 0 from BUSY = 1. -/
def Obligations.BusyEndsOnlyInDone : Prop :=
  ∀ s t : State, s.Inv → s.status.busy = true → nextEvent s.schedule ≠ .reset → step s = .next t →
    t.status.busy = true ∨ t.status.done = true

/-! ### Invariants -/

/-- Every step keeps the invariant: register widths (R20, R33, R34), BUSY exactly when PHASE is not IDLE (R35), ACTIVE and
LASTOP, LASTEM agreeing with the command in flight (R111), an exponent bit left in EXP_SQUARE (R192), CYC and ITER zero when
idle (R113). -/
def Obligations.InvariantKeptByEveryStep : Prop :=
  ∀ s t : State, s.Inv → step s = .next t → t.Inv

/-- The state after reset of every admissible instance meets both invariants. -/
def Obligations.ResetMeetsTheInvariants : Prop :=
  (∀ p : Params, p.Wf → (State.resetOf p).Inv ∧ (State.resetOf p).EngineInv) ∧ State.reset.Inv

/-- R196's loop invariant holds of the engine's hidden registers along every run: every step keeps it. That half
an iteration is one internal operation is the model's choice (log entry 13). -/
def Obligations.EngineInvariantKeptByEveryStep : Prop :=
  ∀ s t : State, s.Inv → s.EngineInv → step s = .next t → t.EngineInv

/-- R193: when ITER reaches 0, ACC is the result that the completion writes. -/
def Obligations.AccumulatorIsTheResultWhenIterIsZero : Prop :=
  ∀ (s : State) (c : Active), s.Inv → s.EngineInv → s.active = some c → c.op = .modexp → s.mod ≠ 0#2048 → s.iter = 0 →
    s.acc.toNat = s.opa.toNat ^ (s.exp.toNat % 2 ^ c.width) % s.mod.toNat ∧
    (s.retire c).result = s.acc

/-- R195: an accepted MODEXP performs exactly 2W' uses of the multiplier and W' iterations, whatever the operands: after `k`
operations ITER has gone down by `k / 2`; after 2W' the engine does nothing more. Two clauses rest on the model's choices:
that uses are counted by `draws`, which each advances by one (log entries 6 and 13), and PHASE, which is EXP_SQUARE from the
end of an iteration to the next one's first half (log entry 13) and EXP_MULTIPLY after the last iteration (log entry 25). -/
def Obligations.EngineOperationCount : Prop :=
  ∀ (s : State) (m : EMode), s.params.Wf →
    (∀ k, k ≤ 2 * m.width s.params →
      ((s.accept .modexp m).workFor k).iter = m.width s.params - k / 2 ∧
      ((s.accept .modexp m).workFor k).phase =
        (if k % 2 = 0 ∧ k < 2 * m.width s.params then .expSquare else .expMultiply) ∧
      ((s.accept .modexp m).workFor k).draws = s.draws + k) ∧
    ((s.accept .modexp m).workFor (2 * m.width s.params)).work =
      (s.accept .modexp m).workFor (2 * m.width s.params)

/-- R207, R112: an internal operation changes nothing the host can see: no word of the window, no response, no `irq`. -/
def Obligations.InternalWorkIsInvisible : Prop :=
  ∀ (s : State) (rest : List Event), s.schedule = .work :: rest →
    ∃ t, step s = .next t ∧ (∀ a, t.windowRead a = s.windowRead a) ∧ t.rsp = s.rsp ∧ t.irq = s.irq ∧
      t.status = s.status ∧ t.cyc = s.cyc ∧ t.active = s.active ∧ t.params = s.params ∧ t.schedule = rest

/-- Constant shape (R154b, R177, R207, R261): two runs whose states agree on everything but operand data still do after a
step: BUSY, DONE, the error flags, PHASE, ITER, CYC and `irq`'s terms never depend on operand values. -/
def Obligations.TimingIsIndependentOfOperands : Prop :=
  ∀ s s' t t' : State, SameControl s s' → step s = .next t → step s' = .next t' →
    SameControl t t' ∧ t'.irq = t.irq

/-! ### The arithmetic units -/

/-- R133, R134: the carry and borrow primitives. -/
def Obligations.CarryAndBorrowAreExact : Prop :=
  (∀ (w a b : Nat) (cin : Bool), a < 2 ^ w → b < 2 ^ w →
    (addWithCarry w a b cin).1 = (a + b + cin.toNat) % 2 ^ w ∧
    (addWithCarry w a b cin).2.toNat = (a + b + cin.toNat) / 2 ^ w) ∧
  (∀ (n a b : Nat) (bin : Bool), a < 2 ^ n → b < 2 ^ n →
    ((subWithBorrow n a b bin).1 : Int) = ((a : Int) - b - bin.toNat) % 2 ^ n ∧
    ((subWithBorrow n a b bin).2 = true ↔ a < b + bin.toNat))

/-- R138: the masked form of Select is Select; R139: `ge` is the comparison. -/
def Obligations.MaskedSelectIsSelect : Prop :=
  (∀ (w t e : Nat) (f : Bool), t < 2 ^ w → e < 2 ^ w → selectMasked w f t e = (if f then t else e)) ∧
  (∀ n r m : Nat, r < 2 ^ n → m < 2 ^ n → (geBit n r m = true ↔ m ≤ r))

/-- R153: the reference long division computes `(a * b) mod m`; its invariant, with `rem` the remainder of the bits of PROD
above `j`: the shifted value fits in W+1 bits, is below `2m`, and one conditional subtraction brings it below `m` again. -/
def Obligations.ReferenceReductionIsExact : Prop :=
  (∀ w a b m : Nat, a < 2 ^ w → b < 2 ^ w → m < 2 ^ w → 1 ≤ m →
    modMulRef w a b m = a * b % m ∧ ∀ x, modMul a b m x = modMulRef w a b m) ∧
  (∀ w prod m j : Nat, m < 2 ^ w → 1 ≤ m →
    2 * (prod / 2 ^ (j + 1) % m) + (bitOf prod j).toNat < 2 * m ∧
    2 * (prod / 2 ^ (j + 1) % m) + (bitOf prod j).toNat < 2 ^ (w + 1) ∧
    modMulStep w prod m j (prod / 2 ^ (j + 1) % m) = prod / 2 ^ j % m)

/-- R157: ModMul is commutative, depends on residues only, and stays below `m`. -/
def Obligations.ModMulDependsOnResidues : Prop :=
  ∀ a b m x : Nat, 1 ≤ m →
    modMul a b m x = modMul b a m x ∧ modMul a b m x = modMul (a % m) (b % m) m x ∧ modMul a b m x < m

/-- R196: the square-and-multiply loop computes the power, with `0^0 = 1`; each iteration takes the accumulator from the power
of the exponent's bits above `i` to that of the bits from `i` on. -/
def Obligations.SquareAndMultiplyIsThePower : Prop :=
  (∀ base e w m x : Nat, 0 < w → e < 2 ^ w → 1 ≤ m → modExp base e w m x = base ^ e % m) ∧
  (∀ base e i m acc x : Nat, 1 ≤ m → acc % m = base ^ (e / 2 ^ (i + 1)) % m →
    select (bitOf e i) (modMul (modMul acc acc m x) base m x) (modMul acc acc m x) = base ^ (e / 2 ^ i) % m)

/-- The corner cases of R201 (zero exponent), R202 (zero base), R203 (base at or above the modulus), R204 (unit modulus), with
the loop of R190 run over `w` bits. -/
def Obligations.ExponentiationCornerCases : Prop :=
  ∀ base e w m x : Nat, 0 < w → e < 2 ^ w → 1 ≤ m →
    modExp base 0 w m x = 1 % m ∧
    (0 < e → modExp 0 e w m x = 0) ∧
    modExp base e w m x = modExp (base % m) e w m x ∧
    modExp base e w 1 x = 0

/-! ### The exponent -/

/-- R172: bits of EXP at or above W' do not affect the result. -/
def Obligations.ExponentBitsAboveWidthAreIgnored : Prop :=
  ∀ (s : State) (c : Active) (v : Operand) (x : Nat),
    (∀ i, i < c.width → v.getLsbD i = s.exp.getLsbD i) →
    State.commandResult { s with exp := v } c x = s.commandResult c x

/-- R22, R24: MODEXP does not read OPB, MODMUL does not read EXP. -/
def Obligations.UnreadOperandsDoNotMatter : Prop :=
  ∀ (s : State) (c : Active) (v : Operand) (x : Nat),
    (c.op = .modexp → State.commandResult { s with opb := v } c x = s.commandResult c x) ∧
    (c.op = .modmul → State.commandResult { s with exp := v } c x = s.commandResult c x)

/-- R171, R173: bit `k` of the exponent has weight `2^k`; iteration `t` consumes the bit of weight `2^(W'-1-t)`, so the first
bit consumed is the exponent's top bit and the last its bit 0. The engine does so: its iteration `t`, with ITER = W' - t,
selects by that bit (R192; that half an iteration is one internal operation is the model's choice, log entry 13). -/
def Obligations.BitsAreConsumedMostSignificantFirst : Prop :=
  (∀ (v : Operand) (w t : Nat), t < w →
    decoderBit v w t = decide (exponentOf v w / 2 ^ t % 2 = 1) ∧
    decoderBit v w t = v.getLsbD t ∧
    consumedBit v w t = decoderBit v w (w - 1 - t) ∧
    consumedBit v w 0 = v.getLsbD (w - 1) ∧
    consumedBit v w (w - 1) = v.getLsbD 0) ∧
  (∀ (s : State) (c : Active) (i : Nat), s.active = some c → i < c.width →
    (s.multiplyStep i).acc = (if consumedBit s.exp c.width (c.width - 1 - i) then (s.multiplyStep i).sqb else s.sq)) ∧
  (∀ (s : State) (c : Active) (t : Nat), s.active = some c → t < c.width → s.phase = .expMultiply → s.iter = c.width - t →
    s.work = s.multiplyStep (c.width - 1 - t) ∧
    s.work.acc = (if consumedBit s.exp c.width t then s.work.sqb else s.sq))

/-- R176: where bit `k` stands in the big-endian byte buffer, and that consumption reads the bytes in ascending order, each
from bit 7 down to bit 0. -/
def Obligations.ExponentBitInByteBuffer : Prop :=
  ∀ w e k : Nat, w % 8 = 0 → e < 2 ^ w → k < w →
    bitOf e k = (bigEndianByte w e (w / 8 - 1 - k / 8)).getLsbD (k % 8) ∧
    bitOf e (w - 1 - k) = (bigEndianByte w e (k / 8)).getLsbD (7 - k % 8)

/-- R175: the 64-bit exponent is EXP's word `W/32 - 2` above its word `W/32 - 1`, and the high word's bits are consumed
first. -/
def Obligations.SplitExponentHighWordFirst : Prop :=
  ∀ (p : Params) (v : Operand), p.Wf →
    let hi := wordOf p.width v (p.nwords - 2)
    let lo := wordOf p.width v (p.nwords - 1)
    hi = v.extractLsb' 32 32 ∧ lo = v.extractLsb' 0 32 ∧
    exponentOf v 64 = hi.toNat * 2 ^ 32 + lo.toNat ∧
    (∀ t, t < 32 → consumedBit v 64 t = hi.getLsbD (31 - t)) ∧
    (∀ t, t < 32 → consumedBit v 64 (32 + t) = lo.getLsbD (31 - t))

/-- R141: the big-endian byte buffer of a value gives the value back, and a word written to a register reads back as
written (through the host port: `OperandWordWrite`). -/
def Obligations.BigEndianBytesRoundTrip : Prop :=
  (∀ w v : Nat, w % 8 = 0 → v < 2 ^ w →
    (toBigEndianBytes w v).length = w / 8 ∧ fromBigEndianBytes (toBigEndianBytes w v) = v) ∧
  (∀ (p : Params) (v : Operand) (j : Nat) (x : Word), p.Wf → j < p.nwords →
    wordOf p.width (setWord p.width v j x) j = x)

/-! ### The register window -/

/-- R63: word `j` is bits W-1-32j down to W-32-32j, and holds bytes 4j to 4j+3 of the big-endian buffer, byte 4j on top. -/
def Obligations.OperandWordsAreBigEndian : Prop :=
  ∀ (p : Params) (v : Operand) (j : Nat), p.Wf → j < p.nwords →
    (∀ i, i < 32 → (wordOf p.width v j).getLsbD i = v.getLsbD (p.width - 32 - 32 * j + i)) ∧
    wordOf p.width v j =
      bigEndianByte p.width v.toNat (4 * j) ++ bigEndianByte p.width v.toNat (4 * j + 1) ++
        bigEndianByte p.width v.toNat (4 * j + 2) ++ bigEndianByte p.width v.toNat (4 * j + 3)

/-- The register map (R61, R62, R64, R65): where each word of each register stands, and which offsets reach nothing. -/
def Obligations.RegisterMap : Prop :=
  ∀ n : Nat, n ≤ 64 →
    target n 0x000#12 = .cfg ∧ target n 0x004#12 = .cmd ∧ target n 0x008#12 = .status ∧ target n 0x00C#12 = .ctrl ∧
    (∀ j, j < n →
      target n (BitVec.ofNat 12 (0x100 + 4 * j)) = .operand .opa j ∧
      target n (BitVec.ofNat 12 (0x200 + 4 * j)) = .operand .opb j ∧
      target n (BitVec.ofNat 12 (0x300 + 4 * j)) = .operand .mod j ∧
      target n (BitVec.ofNat 12 (0x400 + 4 * j)) = .operand .exp j ∧
      target n (BitVec.ofNat 12 (0x500 + 4 * j)) = .operand .result j) ∧
    (∀ (r : OperandReg) (j : Nat), n ≤ j → j < 64 → target n (BitVec.ofNat 12 (r.base + 4 * j)) = .unmapped) ∧
    (∀ a : Offset, 0x010 ≤ a.toNat → a.toNat < 0x100 → target n a = .unmapped) ∧
    (∀ a : Offset, 0x600 ≤ a.toNat → target n a = .unmapped)

/-- R68: an aligned 4-byte read answers what the register map holds there and changes nothing but the port's response. -/
def Obligations.ReadsReturnTheRegisterAndChangeNothing : Prop :=
  ∀ (s : State) (rest : List Event) (a : Offset) (d : Word), a.toNat % 4 = 0 →
    s.schedule = .txn { write := false, addr := a, size := 2#2, wdata := d } :: rest →
    step s = .next { s with schedule := rest, rsp := some { rdata := s.windowRead a, err := false } } ∧
    (a = 0x000#12 → s.windowRead a = cfgWord s.params) ∧
    (a = 0x004#12 → s.windowRead a = 0#32) ∧
    (a = 0x008#12 → s.windowRead a = s.status.toWord) ∧
    (a = 0x00C#12 → s.windowRead a = (if s.ie then 1#32 else 0#32)) ∧
    (∀ (r : OperandReg) (j : Nat), j < 64 → a.toNat = r.base + 4 * j →
      s.windowRead a =
        (if j < s.params.width / 32 then (s.reg r).extractLsb' (s.params.width - 32 - 32 * j) 32 else 0#32)) ∧
    ((0x010 ≤ a.toNat ∧ a.toNat < 0x100) ∨ 0x600 ≤ a.toNat → s.windowRead a = 0#32)

/-- R70: a write to a word of OPA, OPB, MOD or EXP. Not BUSY: that word reads as written, every other offset of the window
reads as before, and no register but this one changes. BUSY: dropped, WBUSY set. -/
def Obligations.OperandWordWrite : Prop :=
  ∀ (s : State) (rest : List Event) (a : Offset) (v : Word) (r : OperandReg) (j : Nat), s.params.Wf →
    s.schedule = .txn (Transaction.store a v) :: rest → a.toNat % 4 = 0 →
    target s.params.nwords a = .operand r j → r ≠ .result →
    (s.status.busy = false →
      ∃ x, step s = .next (State.setReg { s with schedule := rest, rsp := some { rdata := 0#32, err := false } } r x) ∧
        (s.setReg r x).windowRead a = v ∧
        (∀ b : Offset, target s.params.nwords b ≠ .operand r j → (s.setReg r x).windowRead b = s.windowRead b)) ∧
    (s.status.busy = true →
      step s = .next { s with
        status := { s.status with wbusy := true }
        schedule := rest
        rsp := some { rdata := 0#32, err := false } })

/-- R64, R65: reserved offsets and unused offsets of an operand window read 0, and a write to one is ignored, BUSY or not:
no flag, no error. -/
def Obligations.ReservedOffsetsIgnoreWrites : Prop :=
  ∀ (s : State) (rest : List Event) (a : Offset) (v : Word), s.params.Wf → a.toNat % 4 = 0 →
    ((0x010 ≤ a.toNat ∧ a.toNat < 0x100) ∨ 0x600 ≤ a.toNat ∨
      ∃ r : OperandReg, r.base + s.params.width / 8 ≤ a.toNat ∧ a.toNat < r.base + 0x100) →
    (s.schedule = .txn (Transaction.store a v) :: rest →
      step s = .next { s with schedule := rest, rsp := some { rdata := 0#32, err := false } }) ∧
    s.windowRead a = 0#32

/-- R221: a transaction that is not 4 bytes or not aligned is refused with an error and changes nothing; no other
transaction answers an error. -/
def Obligations.BusErrorChangesNothing : Prop :=
  ∀ (s : State) (rest : List Event) (tr : Transaction), s.schedule = .txn tr :: rest →
    ((tr.size ≠ 2#2 ∨ tr.addr.toNat % 4 ≠ 0) →
      step s = .next { s with schedule := rest, rsp := some { rdata := 0#32, err := true } }) ∧
    ((tr.size = 2#2 ∧ tr.addr.toNat % 4 = 0) → ∃ t d, step s = .next t ∧ t.rsp = some { rdata := d, err := false })

/-- R71, R25: RESULT changes only in a cycle in which a command completes; a host write to its window is ignored, BUSY or not.
A reset event is let out: R251 says that reset does not change RESULT and R39 that it is unspecified afterwards, and that a
reset makes it a free value is the model's reading (log entry 5). -/
def Obligations.ResultChangesOnlyAtCompletion : Prop :=
  (∀ s t : State, s.Inv → step s = .next t → t.result ≠ s.result →
    nextEvent s.schedule = .reset ∨
    (s.status.busy = true ∧ s.cyc = 1 ∧
      (nextEvent s.schedule = .tick ∨ ∃ tr first, nextEvent s.schedule = .cycle tr first))) ∧
  (∀ (s : State) (rest : List Event) (a : Offset) (v : Word), 0x500 ≤ a.toNat → a.toNat < 0x600 → a.toNat % 4 = 0 →
    s.schedule = .txn (Transaction.store a v) :: rest →
    step s = .next { s with schedule := rest, rsp := some { rdata := 0#32, err := false } })

/-- R21 to R24: no command and no clock edge writes OPA, OPB, MOD or EXP. One changes only by a host write to its own window
that finds no command in flight (or one that completes in that very cycle), or in reset. -/
def Obligations.OperandsChangeOnlyByHostWrites : Prop :=
  ∀ (s t : State) (r : OperandReg), s.Inv → step s = .next t → r ≠ .result → t.reg r ≠ s.reg r →
    nextEvent s.schedule = .reset ∨
    ∃ tr j, tr.write = true ∧ tr.accessOk = true ∧ target s.params.nwords tr.addr = .operand r j ∧
      ((nextEvent s.schedule = .txn tr ∧ s.status.busy = false) ∨
       ∃ first, nextEvent s.schedule = .cycle tr first ∧ (s.status.busy = false ∨ (s.cyc = 1 ∧ first = .clock)))

/-! ### Status, control and interrupt -/

/-- R28: CFG, at offset 0x000, and that a write to it is ignored. -/
def Obligations.CfgDescribesTheInstance : Prop :=
  (∀ s : State, s.params.Wf →
    (s.windowRead 0x000#12).toNat = 0x00170000 + s.params.width / 32 ∧
    (s.windowRead 0x000#12).extractLsb' 0 16 = BitVec.ofNat 16 (s.params.width / 32) ∧
    (s.windowRead 0x000#12).extractLsb' 16 3 = 0b111#3 ∧ (s.windowRead 0x000#12).extractLsb' 19 1 = 0#1 ∧
    (s.windowRead 0x000#12).extractLsb' 20 4 = 0x1#4 ∧ (s.windowRead 0x000#12).extractLsb' 24 8 = 0#8 ∧
    (s.params.width = 256 → s.windowRead 0x000#12 = 0x00170008#32) ∧
    (s.params.width = 2048 → s.windowRead 0x000#12 = 0x00170040#32)) ∧
  (∀ (s : State) (rest : List Event) (v : Word), s.schedule = .txn (Transaction.store 0x000#12 v) :: rest →
    step s = .next { s with schedule := rest, rsp := some { rdata := 0#32, err := false } })

/-- R30: where each field of STATUS stands; bits 7:5 and 31:14 read 0. -/
def Obligations.StatusWordLayout : Prop :=
  ∀ st : Status,
    st.toWord.getLsbD 0 = st.busy ∧ st.toWord.getLsbD 1 = st.done ∧ st.toWord.getLsbD 2 = st.mz ∧
    st.toWord.getLsbD 3 = st.ill ∧ st.toWord.getLsbD 4 = st.wbusy ∧
    st.toWord.extractLsb' 5 3 = 0#3 ∧ st.toWord.extractLsb' 8 4 = st.lastop ∧
    st.toWord.extractLsb' 12 2 = st.lastem ∧ st.toWord.extractLsb' 14 18 = 0#18

/-- R30, R69: a write to STATUS clears each W1C flag whose bit is 1, and leaves all else. -/
def Obligations.StatusWriteClearsNamedFlags : Prop :=
  ∀ (s : State) (rest : List Event) (v : Word), s.schedule = .txn (Transaction.store 0x008#12 v) :: rest →
    step s = .next { s with
      schedule := rest
      rsp := some { rdata := 0#32, err := false }
      status := { s.status with
        done := if v.getLsbD 1 then false else s.status.done
        mz := if v.getLsbD 2 then false else s.status.mz
        ill := if v.getLsbD 3 then false else s.status.ill
        wbusy := if v.getLsbD 4 then false else s.status.wbusy } }

/-- R31: a write to CTRL sets IE from bit 0, BUSY or not; bits 31:1 read 0; IE is 0 after reset. -/
def Obligations.CtrlHoldsInterruptEnable : Prop :=
  (∀ (s : State) (rest : List Event) (v : Word), s.schedule = .txn (Transaction.store 0x00C#12 v) :: rest →
    ∃ t, step s = .next t ∧
      t = { s with schedule := rest, rsp := some { rdata := 0#32, err := false }, ie := v.getLsbD 0 } ∧
      t.windowRead 0x00C#12 = v &&& 1#32) ∧
  (∀ (s t : State) (rest : List Event), s.schedule = .reset :: rest → step s = .next t → t.ie = false)

/-- R37, R226: `irq` is a level, a function of CTRL.IE and of DONE, ILL and WBUSY; enabling it with a flag pending raises it,
and a write to STATUS that clears the three flags drops it. -/
def Obligations.IrqIsALevelOfIeAndFlags : Prop :=
  (∀ s : State, s.irq = (s.ie && (s.status.done || s.status.ill || s.status.wbusy))) ∧
  (∀ (s t : State) (rest : List Event), s.schedule = .txn (Transaction.store 0x00C#12 1#32) :: rest → step s = .next t →
    t.irq = (s.status.done || s.status.ill || s.status.wbusy)) ∧
  (∀ (s t : State) (rest : List Event) (v : Word), s.schedule = .txn (Transaction.store 0x008#12 v) :: rest →
    v.getLsbD 1 = true → v.getLsbD 3 = true → v.getLsbD 4 = true → step s = .next t → t.irq = false)

/-- R222: an illegal word written while not BUSY sets ILL and changes nothing else; ILL then stays until the host writes 1 to
STATUS bit 3 (or reset). -/
def Obligations.IllegalWordSetsStickyIll : Prop :=
  (∀ (s : State) (rest : List Event) (w : Word), s.status.busy = false → legal w = false →
    s.schedule = .txn (Transaction.store 0x004#12 w) :: rest →
    step s = .next { s with
      status := { s.status with ill := true }
      schedule := rest
      rsp := some { rdata := 0#32, err := false } }) ∧
  (∀ s t : State, step s = .next t → s.status.ill = true → t.status.ill = false →
    nextEvent s.schedule = .reset ∨
    ∃ tr, (nextEvent s.schedule = .txn tr ∨ ∃ first, nextEvent s.schedule = .cycle tr first) ∧
      tr.accessOk = true ∧ tr.write = true ∧ tr.addr = 0x008#12 ∧ tr.wdata.getLsbD 3 = true)

/-- R223: WBUSY is set only by a write to CMD or to a used word of OPA, OPB, MOD or EXP that comes while BUSY, and stays until
the host writes 1 to STATUS bit 4 (or reset). The command in flight is not affected (`CommandWhileBusyIsDropped`,
`OperandWordWrite`). -/
def Obligations.WbusyRecordsDroppedWrites : Prop :=
  (∀ s t : State, step s = .next t → s.status.wbusy = false → t.status.wbusy = true →
    s.status.busy = true ∧
    ∃ tr, (nextEvent s.schedule = .txn tr ∨ ∃ first, nextEvent s.schedule = .cycle tr first) ∧
      tr.accessOk = true ∧ tr.write = true ∧
      (target s.params.nwords tr.addr = .cmd ∨
        ∃ r j, r ≠ .result ∧ target s.params.nwords tr.addr = .operand r j)) ∧
  (∀ s t : State, step s = .next t → s.status.wbusy = true → t.status.wbusy = false →
    nextEvent s.schedule = .reset ∨
    ∃ tr, (nextEvent s.schedule = .txn tr ∨ ∃ first, nextEvent s.schedule = .cycle tr first) ∧
      tr.accessOk = true ∧ tr.write = true ∧ tr.addr = 0x008#12 ∧ tr.wdata.getLsbD 4 = true)

/-- R227b: a completion and a write-one-to-clear in one cycle, in either order: DONE, and MZ for a zero modulus, are 1
afterwards; ILL and WBUSY, which the hardware does not set in this cycle, are cleared as named. -/
def Obligations.CompletionSetWinsOverClear : Prop :=
  ∀ (s : State) (rest : List Event) (v : Word) (first : First) (c : Active), s.Inv → s.active = some c → s.cyc = 1 →
    s.schedule = .cycle (Transaction.store 0x008#12 v) first :: rest →
    ∃ t, step s = .next t ∧ t.status.busy = false ∧ t.status.done = true ∧
      (s.mod = 0#2048 → t.status.mz = true) ∧ (s.mod ≠ 0#2048 → t.status.mz = false) ∧
      t.status.ill = (s.status.ill && !v.getLsbD 3) ∧ t.status.wbusy = (s.status.wbusy && !v.getLsbD 4)

/-- R76, R228: a clock edge and a transaction in one cycle. On an idle core that is the transaction alone, so a command accepted
in it counts its latency from the next edge on (the model's choice, log entry 9). On a busy one it is
the two in the order the event names: the transaction, then the edge; or the edge, then the transaction, but that DONE and MZ
may differ where the transaction is a write to STATUS and the edge completes the command (R227b; their values then:
`CompletionSetWinsOverClear`). -/
def Obligations.SameCycleIsBothInSomeOrder : Prop :=
  ∀ (s : State) (rest : List Event) (tr : Transaction) (first : First), s.schedule = .cycle tr first :: rest →
    (s.status.busy = false → step s = step { s with schedule := .txn tr :: rest }) ∧
    (s.status.busy = true → first = .transaction →
      step s = Host.Core.run core 2 ({ s with schedule := .txn tr :: .tick :: rest } : State)) ∧
    (s.status.busy = true → first = .clock →
      ∃ t u, step s = .next t ∧
        Host.Core.run core 2 ({ s with schedule := .tick :: .txn tr :: rest } : State) = .next u ∧
        t = { u with status := { u.status with done := t.status.done, mz := t.status.mz } } ∧
        (1 < s.cyc ∨ tr.accessOk = false ∨ tr.write = false ∨ tr.addr ≠ 0x008#12 → t = u))

/-- R76: a read in the cycle of a clock edge changes nothing of what the edge does; it answers what stood at its offset before
the edge, or what stands there after it, as the order says. -/
def Obligations.ReadRacesClockEdge : Prop :=
  ∀ (s : State) (rest : List Event) (a : Offset) (d : Word) (first : First), s.Inv → a.toNat % 4 = 0 →
    s.schedule = .cycle { write := false, addr := a, size := 2#2, wdata := d } first :: rest →
    ∃ u, step { s with schedule := .tick :: rest } = .next u ∧
      step s = .next { u with
        rsp := some
          { rdata := (match first with
              | .transaction => s.windowRead a
              | .clock => u.windowRead a)
            err := false } }

/-- R228, R70, R223: a write of an operand word in the cycle of a completion. Ordered before it, the write is dropped with
WBUSY; ordered after it, the word is stored. Either way the command completes on the operands it was accepted with. -/
def Obligations.OperandWriteRacesCompletion : Prop :=
  ∀ (s : State) (rest : List Event) (a : Offset) (v : Word) (r : OperandReg) (j : Nat) (c : Active), s.Inv →
    s.active = some c → s.cyc = 1 → a.toNat % 4 = 0 → target s.params.nwords a = .operand r j → r ≠ .result →
    (s.schedule = .cycle (Transaction.store a v) .transaction :: rest →
      ∃ t, step s = .next t ∧ sameOperands s t ∧ t.status.wbusy = true ∧ t.status.busy = false ∧ t.status.done = true ∧
        (s.mod ≠ 0#2048 → t.result.toNat = s.expectedResult c)) ∧
    (s.schedule = .cycle (Transaction.store a v) .clock :: rest →
      ∃ t, step s = .next t ∧ t.windowRead a = v ∧
        (∀ b : Offset, b ≠ 0x008#12 → target s.params.nwords b ≠ .operand r j →
          (∀ k, target s.params.nwords b ≠ .operand .result k) → t.windowRead b = s.windowRead b) ∧
        t.status.wbusy = s.status.wbusy ∧ t.status.busy = false ∧ t.status.done = true ∧
        (s.mod ≠ 0#2048 → t.result.toNat = s.expectedResult c))

/-- R227c, R228: a legal command word and a completion in one cycle. Ordered before the completion, the write sees BUSY and is
dropped with WBUSY; ordered after it, the write is accepted. Either way the completed command's result is in RESULT. -/
def Obligations.CommandWriteRacesCompletion : Prop :=
  ∀ (s : State) (rest : List Event) (i : Instr) (c : Active), s.Inv → s.active = some c → s.cyc = 1 → s.mod ≠ 0#2048 →
    (s.schedule = .cycle (Transaction.store 0x004#12 (encode i)) .transaction :: rest →
      ∃ t, step s = .next t ∧ t.status.busy = false ∧ t.status.done = true ∧ t.status.wbusy = true ∧
        t.status.lastop = s.status.lastop ∧ t.active = none ∧ t.result.toNat = s.expectedResult c) ∧
    (s.schedule = .cycle (Transaction.store 0x004#12 (encode i)) .clock :: rest →
      ∃ t, step s = .next t ∧ t.status.busy = true ∧ t.status.done = false ∧ t.status.wbusy = s.status.wbusy ∧
        t.active = some { op := opOf i, width := (emodeOf i).width s.params } ∧
        t.cyc = latencyOf s.params (opOf i) (emodeOf i) ∧ t.result.toNat = s.expectedResult c)

/-! ### Reset and totality -/

/-- R250, R114: reset, whenever it comes, gives the control state of R38 and abandons a command in flight. The operand
registers, RESULT and the hidden registers are left unspecified. -/
def Obligations.ResetGivesTheControlState : Prop :=
  ∀ (s : State) (rest : List Event), s.schedule = .reset :: rest →
    ∃ t, step s = .next t ∧ t.status.toWord = 0#32 ∧ ctrlWord t.ie = 0#32 ∧ t.phase = .idle ∧ t.cyc = 0 ∧ t.iter = 0 ∧
      t.active = none ∧ t.rsp = none ∧ t.irq = false ∧ t.params = s.params ∧ t.schedule = rest

/-- R252: after reset (a reset event, and `State.resetOf`) STATUS and CTRL read 0, CFG reads its constant, and the core waits:
no clock edge changes it. -/
def Obligations.AfterResetTheCoreWaits : Prop :=
  (∀ (s t : State) (rest : List Event), s.params.Wf → s.schedule = .reset :: rest → step s = .next t →
    t.windowRead 0x008#12 = 0#32 ∧ t.windowRead 0x00C#12 = 0#32 ∧
    (t.windowRead 0x000#12).toNat = 0x00170000 + s.params.width / 32 ∧ t.irq = false ∧
    t.clock = t) ∧
  (∀ p : Params, p.Wf →
    (State.resetOf p).windowRead 0x008#12 = 0#32 ∧ (State.resetOf p).windowRead 0x00C#12 = 0#32 ∧
    ((State.resetOf p).windowRead 0x000#12).toNat = 0x00170000 + p.width / 32 ∧
    (State.resetOf p).irq = false ∧ step (State.resetOf p) = .next (State.resetOf p))

/-- The core is total: no state and no event leads to a fault or a refusal, and no step changes the instance's parameters
(R220: an error is a flag or a response; R229: there is no trap). -/
def Obligations.EveryStepGoesOn : Prop :=
  ∀ s : State, ∃ t, step s = .next t ∧ t.params = s.params

/-- R97: the pseudo-instruction LD, performed on an idle core, leaves the value in the register and nothing else changed but
the port's response. That no clock edge falls between its writes is the model's choice (log entry 26). -/
def Obligations.LoadFillsTheRegister : Prop :=
  ∀ (s : State) (r : OperandReg) (v : Operand), s.Inv → s.status.busy = false → r ≠ .result →
    v.toNat < 2 ^ s.params.width →
    s.schedule = scheduleOf s.params [.ld r v] →
    Host.Core.run core s.params.nwords s =
      .next { s.setReg r v with schedule := [], rsp := some { rdata := 0#32, err := false } }
end

