-- ==== Sys2Proof/Laws/State.lean ====
section
/-!
SUPPORT. What each update of the state leaves in each field: one lemma a field, true by unfolding the record, for
`simp`. A proof cites these instead of unfolding an update.
-/

namespace Sys2Proof.Machine

variable (s : State) (st : Status)


/-! ### `Status.accepted` -/

@[simp] theorem Status.accepted_busy (op : BitVec 4) (em : BitVec 2) : (st.accepted op em).busy = true := rfl
@[simp] theorem Status.accepted_done (op : BitVec 4) (em : BitVec 2) : (st.accepted op em).done = false := rfl
@[simp] theorem Status.accepted_mz (op : BitVec 4) (em : BitVec 2) : (st.accepted op em).mz = false := rfl
@[simp] theorem Status.accepted_ill (op : BitVec 4) (em : BitVec 2) : (st.accepted op em).ill = st.ill := rfl
@[simp] theorem Status.accepted_wbusy (op : BitVec 4) (em : BitVec 2) : (st.accepted op em).wbusy = st.wbusy := rfl
@[simp] theorem Status.accepted_lastop (op : BitVec 4) (em : BitVec 2) : (st.accepted op em).lastop = op := rfl
@[simp] theorem Status.accepted_lastem (op : BitVec 4) (em : BitVec 2) : (st.accepted op em).lastem = em := rfl

/-! ### `Status.completed` -/

@[simp] theorem Status.completed_busy (z : Bool) : (st.completed z).busy = false := rfl
@[simp] theorem Status.completed_done (z : Bool) : (st.completed z).done = true := rfl
@[simp] theorem Status.completed_mz (z : Bool) : (st.completed z).mz = z := rfl
@[simp] theorem Status.completed_ill (z : Bool) : (st.completed z).ill = st.ill := rfl
@[simp] theorem Status.completed_wbusy (z : Bool) : (st.completed z).wbusy = st.wbusy := rfl
@[simp] theorem Status.completed_lastop (z : Bool) : (st.completed z).lastop = st.lastop := rfl
@[simp] theorem Status.completed_lastem (z : Bool) : (st.completed z).lastem = st.lastem := rfl

/-! ### `Status.setIll` -/

@[simp] theorem Status.setIll_busy : (st.setIll).busy = st.busy := rfl
@[simp] theorem Status.setIll_done : (st.setIll).done = st.done := rfl
@[simp] theorem Status.setIll_mz : (st.setIll).mz = st.mz := rfl
@[simp] theorem Status.setIll_ill : (st.setIll).ill = true := rfl
@[simp] theorem Status.setIll_wbusy : (st.setIll).wbusy = st.wbusy := rfl
@[simp] theorem Status.setIll_lastop : (st.setIll).lastop = st.lastop := rfl
@[simp] theorem Status.setIll_lastem : (st.setIll).lastem = st.lastem := rfl

/-! ### `Status.setWbusy` -/

@[simp] theorem Status.setWbusy_busy : (st.setWbusy).busy = st.busy := rfl
@[simp] theorem Status.setWbusy_done : (st.setWbusy).done = st.done := rfl
@[simp] theorem Status.setWbusy_mz : (st.setWbusy).mz = st.mz := rfl
@[simp] theorem Status.setWbusy_ill : (st.setWbusy).ill = st.ill := rfl
@[simp] theorem Status.setWbusy_wbusy : (st.setWbusy).wbusy = true := rfl
@[simp] theorem Status.setWbusy_lastop : (st.setWbusy).lastop = st.lastop := rfl
@[simp] theorem Status.setWbusy_lastem : (st.setWbusy).lastem = st.lastem := rfl

/-! ### `Status.w1c` -/

@[simp] theorem Status.w1c_busy (v : Word) (now : SetNow) : (st.w1c v now).busy = st.busy := rfl
@[simp] theorem Status.w1c_done (v : Word) (now : SetNow) : (st.w1c v now).done = (now.done || (st.done && !v.getLsbD 1)) := rfl
@[simp] theorem Status.w1c_mz (v : Word) (now : SetNow) : (st.w1c v now).mz = (now.mz || (st.mz && !v.getLsbD 2)) := rfl
@[simp] theorem Status.w1c_ill (v : Word) (now : SetNow) : (st.w1c v now).ill = (st.ill && !v.getLsbD 3) := rfl
@[simp] theorem Status.w1c_wbusy (v : Word) (now : SetNow) : (st.w1c v now).wbusy = (st.wbusy && !v.getLsbD 4) := rfl
@[simp] theorem Status.w1c_lastop (v : Word) (now : SetNow) : (st.w1c v now).lastop = st.lastop := rfl
@[simp] theorem Status.w1c_lastem (v : Word) (now : SetNow) : (st.w1c v now).lastem = st.lastem := rfl

/-! ### `State.setIll` -/

@[simp] theorem State.setIll_params : (s.setIll).params = s.params := rfl
@[simp] theorem State.setIll_opa : (s.setIll).opa = s.opa := rfl
@[simp] theorem State.setIll_opb : (s.setIll).opb = s.opb := rfl
@[simp] theorem State.setIll_mod : (s.setIll).mod = s.mod := rfl
@[simp] theorem State.setIll_exp : (s.setIll).exp = s.exp := rfl
@[simp] theorem State.setIll_result : (s.setIll).result = s.result := rfl
@[simp] theorem State.setIll_status : (s.setIll).status = s.status.setIll := rfl
@[simp] theorem State.setIll_ie : (s.setIll).ie = s.ie := rfl
@[simp] theorem State.setIll_phase : (s.setIll).phase = s.phase := rfl
@[simp] theorem State.setIll_cyc : (s.setIll).cyc = s.cyc := rfl
@[simp] theorem State.setIll_iter : (s.setIll).iter = s.iter := rfl
@[simp] theorem State.setIll_active : (s.setIll).active = s.active := rfl
@[simp] theorem State.setIll_acc : (s.setIll).acc = s.acc := rfl
@[simp] theorem State.setIll_sq : (s.setIll).sq = s.sq := rfl
@[simp] theorem State.setIll_sqb : (s.setIll).sqb = s.sqb := rfl
@[simp] theorem State.setIll_prod : (s.setIll).prod = s.prod := rfl
@[simp] theorem State.setIll_rem : (s.setIll).rem = s.rem := rfl
@[simp] theorem State.setIll_rsp : (s.setIll).rsp = s.rsp := rfl
@[simp] theorem State.setIll_schedule : (s.setIll).schedule = s.schedule := rfl
@[simp] theorem State.setIll_draws : (s.setIll).draws = s.draws := rfl

/-! ### `State.setWbusy` -/

@[simp] theorem State.setWbusy_params : (s.setWbusy).params = s.params := rfl
@[simp] theorem State.setWbusy_opa : (s.setWbusy).opa = s.opa := rfl
@[simp] theorem State.setWbusy_opb : (s.setWbusy).opb = s.opb := rfl
@[simp] theorem State.setWbusy_mod : (s.setWbusy).mod = s.mod := rfl
@[simp] theorem State.setWbusy_exp : (s.setWbusy).exp = s.exp := rfl
@[simp] theorem State.setWbusy_result : (s.setWbusy).result = s.result := rfl
@[simp] theorem State.setWbusy_status : (s.setWbusy).status = s.status.setWbusy := rfl
@[simp] theorem State.setWbusy_ie : (s.setWbusy).ie = s.ie := rfl
@[simp] theorem State.setWbusy_phase : (s.setWbusy).phase = s.phase := rfl
@[simp] theorem State.setWbusy_cyc : (s.setWbusy).cyc = s.cyc := rfl
@[simp] theorem State.setWbusy_iter : (s.setWbusy).iter = s.iter := rfl
@[simp] theorem State.setWbusy_active : (s.setWbusy).active = s.active := rfl
@[simp] theorem State.setWbusy_acc : (s.setWbusy).acc = s.acc := rfl
@[simp] theorem State.setWbusy_sq : (s.setWbusy).sq = s.sq := rfl
@[simp] theorem State.setWbusy_sqb : (s.setWbusy).sqb = s.sqb := rfl
@[simp] theorem State.setWbusy_prod : (s.setWbusy).prod = s.prod := rfl
@[simp] theorem State.setWbusy_rem : (s.setWbusy).rem = s.rem := rfl
@[simp] theorem State.setWbusy_rsp : (s.setWbusy).rsp = s.rsp := rfl
@[simp] theorem State.setWbusy_schedule : (s.setWbusy).schedule = s.schedule := rfl
@[simp] theorem State.setWbusy_draws : (s.setWbusy).draws = s.draws := rfl

/-! ### `State.respond` -/

@[simp] theorem State.respond_params (r : Response) : (s.respond r).params = s.params := rfl
@[simp] theorem State.respond_opa (r : Response) : (s.respond r).opa = s.opa := rfl
@[simp] theorem State.respond_opb (r : Response) : (s.respond r).opb = s.opb := rfl
@[simp] theorem State.respond_mod (r : Response) : (s.respond r).mod = s.mod := rfl
@[simp] theorem State.respond_exp (r : Response) : (s.respond r).exp = s.exp := rfl
@[simp] theorem State.respond_result (r : Response) : (s.respond r).result = s.result := rfl
@[simp] theorem State.respond_status (r : Response) : (s.respond r).status = s.status := rfl
@[simp] theorem State.respond_ie (r : Response) : (s.respond r).ie = s.ie := rfl
@[simp] theorem State.respond_phase (r : Response) : (s.respond r).phase = s.phase := rfl
@[simp] theorem State.respond_cyc (r : Response) : (s.respond r).cyc = s.cyc := rfl
@[simp] theorem State.respond_iter (r : Response) : (s.respond r).iter = s.iter := rfl
@[simp] theorem State.respond_active (r : Response) : (s.respond r).active = s.active := rfl
@[simp] theorem State.respond_acc (r : Response) : (s.respond r).acc = s.acc := rfl
@[simp] theorem State.respond_sq (r : Response) : (s.respond r).sq = s.sq := rfl
@[simp] theorem State.respond_sqb (r : Response) : (s.respond r).sqb = s.sqb := rfl
@[simp] theorem State.respond_prod (r : Response) : (s.respond r).prod = s.prod := rfl
@[simp] theorem State.respond_rem (r : Response) : (s.respond r).rem = s.rem := rfl
@[simp] theorem State.respond_rsp (r : Response) : (s.respond r).rsp = some r := rfl
@[simp] theorem State.respond_schedule (r : Response) : (s.respond r).schedule = s.schedule := rfl
@[simp] theorem State.respond_draws (r : Response) : (s.respond r).draws = s.draws := rfl

/-! ### `State.popEvent` -/

@[simp] theorem State.popEvent_params : (s.popEvent).params = s.params := rfl
@[simp] theorem State.popEvent_opa : (s.popEvent).opa = s.opa := rfl
@[simp] theorem State.popEvent_opb : (s.popEvent).opb = s.opb := rfl
@[simp] theorem State.popEvent_mod : (s.popEvent).mod = s.mod := rfl
@[simp] theorem State.popEvent_exp : (s.popEvent).exp = s.exp := rfl
@[simp] theorem State.popEvent_result : (s.popEvent).result = s.result := rfl
@[simp] theorem State.popEvent_status : (s.popEvent).status = s.status := rfl
@[simp] theorem State.popEvent_ie : (s.popEvent).ie = s.ie := rfl
@[simp] theorem State.popEvent_phase : (s.popEvent).phase = s.phase := rfl
@[simp] theorem State.popEvent_cyc : (s.popEvent).cyc = s.cyc := rfl
@[simp] theorem State.popEvent_iter : (s.popEvent).iter = s.iter := rfl
@[simp] theorem State.popEvent_active : (s.popEvent).active = s.active := rfl
@[simp] theorem State.popEvent_acc : (s.popEvent).acc = s.acc := rfl
@[simp] theorem State.popEvent_sq : (s.popEvent).sq = s.sq := rfl
@[simp] theorem State.popEvent_sqb : (s.popEvent).sqb = s.sqb := rfl
@[simp] theorem State.popEvent_prod : (s.popEvent).prod = s.prod := rfl
@[simp] theorem State.popEvent_rem : (s.popEvent).rem = s.rem := rfl
@[simp] theorem State.popEvent_rsp : (s.popEvent).rsp = s.rsp := rfl
@[simp] theorem State.popEvent_schedule : (s.popEvent).schedule = s.schedule.tail := rfl
@[simp] theorem State.popEvent_draws : (s.popEvent).draws = s.draws := rfl

/-! ### `State.beginCommand` -/

@[simp] theorem State.beginCommand_params (o : Op) (m : EMode) : (s.beginCommand o m).params = s.params := rfl
@[simp] theorem State.beginCommand_opa (o : Op) (m : EMode) : (s.beginCommand o m).opa = s.opa := rfl
@[simp] theorem State.beginCommand_opb (o : Op) (m : EMode) : (s.beginCommand o m).opb = s.opb := rfl
@[simp] theorem State.beginCommand_mod (o : Op) (m : EMode) : (s.beginCommand o m).mod = s.mod := rfl
@[simp] theorem State.beginCommand_exp (o : Op) (m : EMode) : (s.beginCommand o m).exp = s.exp := rfl
@[simp] theorem State.beginCommand_result (o : Op) (m : EMode) : (s.beginCommand o m).result = s.result := rfl
@[simp] theorem State.beginCommand_status (o : Op) (m : EMode) :
    (s.beginCommand o m).status = s.status.accepted o.code m.code := rfl
@[simp] theorem State.beginCommand_ie (o : Op) (m : EMode) : (s.beginCommand o m).ie = s.ie := rfl
@[simp] theorem State.beginCommand_phase (o : Op) (m : EMode) : (s.beginCommand o m).phase = s.phase := rfl
@[simp] theorem State.beginCommand_cyc (o : Op) (m : EMode) : (s.beginCommand o m).cyc = latencyOf s.params o m := rfl
@[simp] theorem State.beginCommand_iter (o : Op) (m : EMode) : (s.beginCommand o m).iter = s.iter := rfl
@[simp] theorem State.beginCommand_active (o : Op) (m : EMode) :
    (s.beginCommand o m).active = some (Active.mk o (m.width s.params)) := rfl
@[simp] theorem State.beginCommand_acc (o : Op) (m : EMode) : (s.beginCommand o m).acc = s.acc := rfl
@[simp] theorem State.beginCommand_sq (o : Op) (m : EMode) : (s.beginCommand o m).sq = s.sq := rfl
@[simp] theorem State.beginCommand_sqb (o : Op) (m : EMode) : (s.beginCommand o m).sqb = s.sqb := rfl
@[simp] theorem State.beginCommand_prod (o : Op) (m : EMode) : (s.beginCommand o m).prod = s.prod := rfl
@[simp] theorem State.beginCommand_rem (o : Op) (m : EMode) : (s.beginCommand o m).rem = s.rem := rfl
@[simp] theorem State.beginCommand_rsp (o : Op) (m : EMode) : (s.beginCommand o m).rsp = s.rsp := rfl
@[simp] theorem State.beginCommand_schedule (o : Op) (m : EMode) : (s.beginCommand o m).schedule = s.schedule := rfl
@[simp] theorem State.beginCommand_draws (o : Op) (m : EMode) : (s.beginCommand o m).draws = s.draws := rfl

/-! ### `State.accept` -/

@[simp] theorem State.accept_params (o : Op) (m : EMode) : (s.accept o m).params = s.params := by cases o <;> rfl
@[simp] theorem State.accept_opa (o : Op) (m : EMode) : (s.accept o m).opa = s.opa := by cases o <;> rfl
@[simp] theorem State.accept_opb (o : Op) (m : EMode) : (s.accept o m).opb = s.opb := by cases o <;> rfl
@[simp] theorem State.accept_mod (o : Op) (m : EMode) : (s.accept o m).mod = s.mod := by cases o <;> rfl
@[simp] theorem State.accept_exp (o : Op) (m : EMode) : (s.accept o m).exp = s.exp := by cases o <;> rfl
@[simp] theorem State.accept_result (o : Op) (m : EMode) : (s.accept o m).result = s.result := by cases o <;> rfl
@[simp] theorem State.accept_status (o : Op) (m : EMode) :
    (s.accept o m).status = s.status.accepted o.code m.code := by cases o <;> rfl
@[simp] theorem State.accept_ie (o : Op) (m : EMode) : (s.accept o m).ie = s.ie := by cases o <;> rfl
@[simp] theorem State.accept_cyc (o : Op) (m : EMode) :
    (s.accept o m).cyc = latencyOf s.params o m := by cases o <;> rfl
@[simp] theorem State.accept_active (o : Op) (m : EMode) :
    (s.accept o m).active = some (Active.mk o (m.width s.params)) := by cases o <;> rfl
@[simp] theorem State.accept_sq (o : Op) (m : EMode) : (s.accept o m).sq = s.sq := by cases o <;> rfl
@[simp] theorem State.accept_sqb (o : Op) (m : EMode) : (s.accept o m).sqb = s.sqb := by cases o <;> rfl
@[simp] theorem State.accept_prod (o : Op) (m : EMode) : (s.accept o m).prod = s.prod := by cases o <;> rfl
@[simp] theorem State.accept_rem (o : Op) (m : EMode) : (s.accept o m).rem = s.rem := by cases o <;> rfl
@[simp] theorem State.accept_rsp (o : Op) (m : EMode) : (s.accept o m).rsp = s.rsp := by cases o <;> rfl
@[simp] theorem State.accept_schedule (o : Op) (m : EMode) : (s.accept o m).schedule = s.schedule := by cases o <;> rfl
@[simp] theorem State.accept_draws (o : Op) (m : EMode) : (s.accept o m).draws = s.draws := by cases o <;> rfl
@[simp] theorem State.accept_modmul_phase (m : EMode) : (s.accept .modmul m).phase = .modmul := rfl
@[simp] theorem State.accept_modmul_acc (m : EMode) : (s.accept .modmul m).acc = s.acc := rfl
@[simp] theorem State.accept_modmul_iter (m : EMode) : (s.accept .modmul m).iter = s.iter := rfl
@[simp] theorem State.accept_modexp_phase (m : EMode) : (s.accept .modexp m).phase = .expSquare := rfl
@[simp] theorem State.accept_modexp_acc (m : EMode) : (s.accept .modexp m).acc = 1#2048 := rfl
@[simp] theorem State.accept_modexp_iter (m : EMode) : (s.accept .modexp m).iter = m.width s.params := rfl

/-! ### `State.setReg` -/

@[simp] theorem State.setReg_params (r : OperandReg) (v : Operand) :
    (s.setReg r v).params = s.params := by cases r <;> rfl
@[simp] theorem State.setReg_status (r : OperandReg) (v : Operand) :
    (s.setReg r v).status = s.status := by cases r <;> rfl
@[simp] theorem State.setReg_ie (r : OperandReg) (v : Operand) : (s.setReg r v).ie = s.ie := by cases r <;> rfl
@[simp] theorem State.setReg_phase (r : OperandReg) (v : Operand) : (s.setReg r v).phase = s.phase := by cases r <;> rfl
@[simp] theorem State.setReg_cyc (r : OperandReg) (v : Operand) : (s.setReg r v).cyc = s.cyc := by cases r <;> rfl
@[simp] theorem State.setReg_iter (r : OperandReg) (v : Operand) : (s.setReg r v).iter = s.iter := by cases r <;> rfl
@[simp] theorem State.setReg_active (r : OperandReg) (v : Operand) :
    (s.setReg r v).active = s.active := by cases r <;> rfl
@[simp] theorem State.setReg_acc (r : OperandReg) (v : Operand) : (s.setReg r v).acc = s.acc := by cases r <;> rfl
@[simp] theorem State.setReg_sq (r : OperandReg) (v : Operand) : (s.setReg r v).sq = s.sq := by cases r <;> rfl
@[simp] theorem State.setReg_sqb (r : OperandReg) (v : Operand) : (s.setReg r v).sqb = s.sqb := by cases r <;> rfl
@[simp] theorem State.setReg_prod (r : OperandReg) (v : Operand) : (s.setReg r v).prod = s.prod := by cases r <;> rfl
@[simp] theorem State.setReg_rem (r : OperandReg) (v : Operand) : (s.setReg r v).rem = s.rem := by cases r <;> rfl
@[simp] theorem State.setReg_rsp (r : OperandReg) (v : Operand) : (s.setReg r v).rsp = s.rsp := by cases r <;> rfl
@[simp] theorem State.setReg_schedule (r : OperandReg) (v : Operand) :
    (s.setReg r v).schedule = s.schedule := by cases r <;> rfl
@[simp] theorem State.setReg_draws (r : OperandReg) (v : Operand) : (s.setReg r v).draws = s.draws := by cases r <;> rfl

/-- The register written reads as the value written. -/
@[simp] theorem State.reg_setReg_same (r : OperandReg) (v : Operand) : (s.setReg r v).reg r = v := by cases r <;> rfl

/-- Every other register reads as before. -/
theorem State.reg_setReg_other (r q : OperandReg) (v : Operand) (h : q ≠ r) : (s.setReg r v).reg q = s.reg q := by
  cases r <;> cases q <;> first | rfl | exact absurd rfl h

/-! ### `State.multiply` -/

@[simp] theorem State.multiply_params (a b : Operand) : (s.multiply a b).params = s.params := rfl
@[simp] theorem State.multiply_opa (a b : Operand) : (s.multiply a b).opa = s.opa := rfl
@[simp] theorem State.multiply_opb (a b : Operand) : (s.multiply a b).opb = s.opb := rfl
@[simp] theorem State.multiply_mod (a b : Operand) : (s.multiply a b).mod = s.mod := rfl
@[simp] theorem State.multiply_exp (a b : Operand) : (s.multiply a b).exp = s.exp := rfl
@[simp] theorem State.multiply_result (a b : Operand) : (s.multiply a b).result = s.result := rfl
@[simp] theorem State.multiply_status (a b : Operand) : (s.multiply a b).status = s.status := rfl
@[simp] theorem State.multiply_ie (a b : Operand) : (s.multiply a b).ie = s.ie := rfl
@[simp] theorem State.multiply_phase (a b : Operand) : (s.multiply a b).phase = s.phase := rfl
@[simp] theorem State.multiply_cyc (a b : Operand) : (s.multiply a b).cyc = s.cyc := rfl
@[simp] theorem State.multiply_iter (a b : Operand) : (s.multiply a b).iter = s.iter := rfl
@[simp] theorem State.multiply_active (a b : Operand) : (s.multiply a b).active = s.active := rfl
@[simp] theorem State.multiply_acc (a b : Operand) : (s.multiply a b).acc = s.acc := rfl
@[simp] theorem State.multiply_sq (a b : Operand) : (s.multiply a b).sq = s.sq := rfl
@[simp] theorem State.multiply_sqb (a b : Operand) : (s.multiply a b).sqb = s.sqb := rfl
@[simp] theorem State.multiply_prod (a b : Operand) :
    (s.multiply a b).prod = BitVec.ofNat 4096 (multiplyFull a.toNat b.toNat) := rfl
@[simp] theorem State.multiply_rem (a b : Operand) :
    (s.multiply a b).rem = BitVec.ofNat 2049 (modMul a.toNat b.toNat s.mod.toNat s.anyRem) := rfl
@[simp] theorem State.multiply_rsp (a b : Operand) : (s.multiply a b).rsp = s.rsp := rfl
@[simp] theorem State.multiply_schedule (a b : Operand) : (s.multiply a b).schedule = s.schedule := rfl
@[simp] theorem State.multiply_draws (a b : Operand) : (s.multiply a b).draws = s.draws + 1 := rfl

/-! ### `State.squareStep` -/

@[simp] theorem State.squareStep_params : (s.squareStep).params = s.params := rfl
@[simp] theorem State.squareStep_opa : (s.squareStep).opa = s.opa := rfl
@[simp] theorem State.squareStep_opb : (s.squareStep).opb = s.opb := rfl
@[simp] theorem State.squareStep_mod : (s.squareStep).mod = s.mod := rfl
@[simp] theorem State.squareStep_exp : (s.squareStep).exp = s.exp := rfl
@[simp] theorem State.squareStep_result : (s.squareStep).result = s.result := rfl
@[simp] theorem State.squareStep_status : (s.squareStep).status = s.status := rfl
@[simp] theorem State.squareStep_ie : (s.squareStep).ie = s.ie := rfl
@[simp] theorem State.squareStep_phase : (s.squareStep).phase = .expMultiply := rfl
@[simp] theorem State.squareStep_cyc : (s.squareStep).cyc = s.cyc := rfl
@[simp] theorem State.squareStep_iter : (s.squareStep).iter = s.iter := rfl
@[simp] theorem State.squareStep_active : (s.squareStep).active = s.active := rfl
@[simp] theorem State.squareStep_acc : (s.squareStep).acc = s.acc := rfl
@[simp] theorem State.squareStep_sq : (s.squareStep).sq = (s.multiply s.acc s.acc).unitResult := rfl
@[simp] theorem State.squareStep_sqb : (s.squareStep).sqb = s.sqb := rfl
@[simp] theorem State.squareStep_prod : (s.squareStep).prod = (s.multiply s.acc s.acc).prod := rfl
@[simp] theorem State.squareStep_rem : (s.squareStep).rem = (s.multiply s.acc s.acc).rem := rfl
@[simp] theorem State.squareStep_rsp : (s.squareStep).rsp = s.rsp := rfl
@[simp] theorem State.squareStep_schedule : (s.squareStep).schedule = s.schedule := rfl
@[simp] theorem State.squareStep_draws : (s.squareStep).draws = (s.multiply s.acc s.acc).draws := rfl

/-! ### `State.multiplyStep` -/

@[simp] theorem State.multiplyStep_params (i : Nat) : (s.multiplyStep i).params = s.params := rfl
@[simp] theorem State.multiplyStep_opa (i : Nat) : (s.multiplyStep i).opa = s.opa := rfl
@[simp] theorem State.multiplyStep_opb (i : Nat) : (s.multiplyStep i).opb = s.opb := rfl
@[simp] theorem State.multiplyStep_mod (i : Nat) : (s.multiplyStep i).mod = s.mod := rfl
@[simp] theorem State.multiplyStep_exp (i : Nat) : (s.multiplyStep i).exp = s.exp := rfl
@[simp] theorem State.multiplyStep_result (i : Nat) : (s.multiplyStep i).result = s.result := rfl
@[simp] theorem State.multiplyStep_status (i : Nat) : (s.multiplyStep i).status = s.status := rfl
@[simp] theorem State.multiplyStep_ie (i : Nat) : (s.multiplyStep i).ie = s.ie := rfl
@[simp] theorem State.multiplyStep_phase (i : Nat) : (s.multiplyStep i).phase = (if i = 0 then .expMultiply else .expSquare) := rfl
@[simp] theorem State.multiplyStep_cyc (i : Nat) : (s.multiplyStep i).cyc = s.cyc := rfl
@[simp] theorem State.multiplyStep_iter (i : Nat) : (s.multiplyStep i).iter = i := rfl
@[simp] theorem State.multiplyStep_active (i : Nat) : (s.multiplyStep i).active = s.active := rfl
@[simp] theorem State.multiplyStep_acc (i : Nat) :
    (s.multiplyStep i).acc = if bitOf s.exponent i then (s.multiply s.sq s.opa).unitResult else s.sq := rfl
@[simp] theorem State.multiplyStep_sq (i : Nat) : (s.multiplyStep i).sq = s.sq := rfl
@[simp] theorem State.multiplyStep_sqb (i : Nat) : (s.multiplyStep i).sqb = (s.multiply s.sq s.opa).unitResult := rfl
@[simp] theorem State.multiplyStep_prod (i : Nat) : (s.multiplyStep i).prod = (s.multiply s.sq s.opa).prod := rfl
@[simp] theorem State.multiplyStep_rem (i : Nat) : (s.multiplyStep i).rem = (s.multiply s.sq s.opa).rem := rfl
@[simp] theorem State.multiplyStep_rsp (i : Nat) : (s.multiplyStep i).rsp = s.rsp := rfl
@[simp] theorem State.multiplyStep_schedule (i : Nat) : (s.multiplyStep i).schedule = s.schedule := rfl
@[simp] theorem State.multiplyStep_draws (i : Nat) : (s.multiplyStep i).draws = (s.multiply s.sq s.opa).draws := rfl

/-! ### `State.retire` -/

@[simp] theorem State.retire_params (c : Active) : (s.retire c).params = s.params := rfl
@[simp] theorem State.retire_opa (c : Active) : (s.retire c).opa = s.opa := rfl
@[simp] theorem State.retire_opb (c : Active) : (s.retire c).opb = s.opb := rfl
@[simp] theorem State.retire_mod (c : Active) : (s.retire c).mod = s.mod := rfl
@[simp] theorem State.retire_exp (c : Active) : (s.retire c).exp = s.exp := rfl
@[simp] theorem State.retire_result (c : Active) :
    (s.retire c).result = BitVec.ofNat 2048 (s.commandResult c s.anyW) := rfl
@[simp] theorem State.retire_status (c : Active) : (s.retire c).status = s.status.completed (eqBit s.mod.toNat 0) := rfl
@[simp] theorem State.retire_ie (c : Active) : (s.retire c).ie = s.ie := rfl
@[simp] theorem State.retire_phase (c : Active) : (s.retire c).phase = .idle := rfl
@[simp] theorem State.retire_cyc (c : Active) : (s.retire c).cyc = 0 := rfl
@[simp] theorem State.retire_iter (c : Active) : (s.retire c).iter = 0 := rfl
@[simp] theorem State.retire_active (c : Active) : (s.retire c).active = none := rfl
@[simp] theorem State.retire_acc (c : Active) : (s.retire c).acc = s.acc := rfl
@[simp] theorem State.retire_sq (c : Active) : (s.retire c).sq = s.sq := rfl
@[simp] theorem State.retire_sqb (c : Active) : (s.retire c).sqb = s.sqb := rfl
@[simp] theorem State.retire_prod (c : Active) : (s.retire c).prod = s.prod := rfl
@[simp] theorem State.retire_rem (c : Active) : (s.retire c).rem = s.rem := rfl
@[simp] theorem State.retire_rsp (c : Active) : (s.retire c).rsp = s.rsp := rfl
@[simp] theorem State.retire_schedule (c : Active) : (s.retire c).schedule = s.schedule := rfl
@[simp] theorem State.retire_draws (c : Active) : (s.retire c).draws = s.draws + 1 := rfl

/-! ### `State.applyReset` -/

@[simp] theorem State.applyReset_params : (s.applyReset).params = s.params := rfl
@[simp] theorem State.applyReset_opa : (s.applyReset).opa = s.anyOperand 0 := rfl
@[simp] theorem State.applyReset_opb : (s.applyReset).opb = s.anyOperand 1 := rfl
@[simp] theorem State.applyReset_mod : (s.applyReset).mod = s.anyOperand 2 := rfl
@[simp] theorem State.applyReset_exp : (s.applyReset).exp = s.anyOperand 3 := rfl
@[simp] theorem State.applyReset_result : (s.applyReset).result = s.anyOperand 4 := rfl
@[simp] theorem State.applyReset_status : (s.applyReset).status = Status.reset := rfl
@[simp] theorem State.applyReset_ie : (s.applyReset).ie = false := rfl
@[simp] theorem State.applyReset_phase : (s.applyReset).phase = .idle := rfl
@[simp] theorem State.applyReset_cyc : (s.applyReset).cyc = 0 := rfl
@[simp] theorem State.applyReset_iter : (s.applyReset).iter = 0 := rfl
@[simp] theorem State.applyReset_active : (s.applyReset).active = none := rfl
@[simp] theorem State.applyReset_acc : (s.applyReset).acc = s.anyOperand 5 := rfl
@[simp] theorem State.applyReset_sq : (s.applyReset).sq = s.anyOperand 6 := rfl
@[simp] theorem State.applyReset_sqb : (s.applyReset).sqb = s.anyOperand 7 := rfl
@[simp] theorem State.applyReset_prod :
    (s.applyReset).prod = BitVec.ofNat 4096 (Config.anyBits (2 * s.params.width) (s.draws + 8)) := rfl
@[simp] theorem State.applyReset_rem :
    (s.applyReset).rem = BitVec.ofNat 2049 (Config.anyBits (s.params.width + 1) (s.draws + 9)) := rfl
@[simp] theorem State.applyReset_rsp : (s.applyReset).rsp = none := rfl
@[simp] theorem State.applyReset_schedule : (s.applyReset).schedule = s.schedule := rfl
@[simp] theorem State.applyReset_draws : (s.applyReset).draws = s.draws + 10 := rfl

end Sys2Proof.Machine
end

