-- ==== Sys2Proof/Laws/Window.lean ====
section
/-!
SUPPORT. The words of an operand register: what a write of one word leaves in every bit, and so in every word
(20_memory.md R63, R70). These are the read-after-write laws of the only storage the host addresses.
-/

namespace Sys2Proof.Machine

/-- Bit `i` of a register after a write of word `j`: the written word's bits at its place, the old ones elsewhere. -/
theorem getLsbD_setWord (width : Nat) (v : Operand) (j : Nat) (w : Word) (i : Nat) (hi : i < 2048) :
    (setWord width v j w).getLsbD i =
      if wordShift width j ≤ i ∧ i < wordShift width j + 32 then w.getLsbD (i - wordShift width j) else v.getLsbD i := by
  simp only [setWord, BitVec.getLsbD_or, BitVec.getLsbD_and, BitVec.getLsbD_not, BitVec.getLsbD_shiftLeft,
    BitVec.getLsbD_setWidth, BitVec.getLsbD_allOnes, hi, decide_true, Bool.true_and]
  split
  · rename_i h
    have h1 : ¬ i < wordShift width j := by omega
    have h2 : i - wordShift width j < 32 := by omega
    have h3 : i - wordShift width j < 2048 := by omega
    simp [h1, h2, h3]
  · rename_i h
    by_cases h1 : i < wordShift width j
    · simp [h1]
    · have h2 : ¬ i - wordShift width j < 32 := by omega
      have h3 : w.getLsbD (i - wordShift width j) = false := BitVec.getLsbD_of_ge _ _ (by omega)
      simp [h1, h2, h3]

/-- Bit `i` of word `j` is bit `wordShift width j + i` of the register (20_memory.md R63). -/
theorem getLsbD_wordOf (width : Nat) (v : Operand) (j i : Nat) (hi : i < 32) :
    (wordOf width v j).getLsbD i = v.getLsbD (wordShift width j + i) := by
  simp [wordOf, hi]

/-- Word `j` reads as written (20_memory.md R70). -/
theorem wordOf_setWord_same (width : Nat) (v : Operand) (j : Nat) (w : Word) (hw : width ≤ 2048) (h : 32 ≤ width) :
    wordOf width (setWord width v j w) j = w := by
  apply BitVec.eq_of_getLsbD_eq
  intro i hi
  have hb : wordShift width j + i < 2048 := by simp only [wordShift]; omega
  rw [getLsbD_wordOf _ _ _ _ hi, getLsbD_setWord _ _ _ _ _ hb, if_pos (by omega)]
  congr 1
  omega

/-- The other words are unchanged (20_memory.md R70). -/
theorem wordOf_setWord_other (width : Nat) (v : Operand) (j k : Nat) (w : Word) (hw : width ≤ 2048)
    (hj : j < width / 32) (hk : k < width / 32) (hne : k ≠ j) :
    wordOf width (setWord width v j w) k = wordOf width v k := by
  apply BitVec.eq_of_getLsbD_eq
  intro i hi
  have hb : wordShift width k + i < 2048 := by simp only [wordShift]; omega
  rw [getLsbD_wordOf _ _ _ _ hi, getLsbD_wordOf _ _ _ _ hi, getLsbD_setWord _ _ _ _ _ hb, if_neg]
  simp only [wordShift]
  omega

/-- A register that fits in `width` bits still does after a word of it is written. -/
theorem setWord_lt (width : Nat) (v : Operand) (j : Nat) (w : Word) (hj : j < width / 32)
    (hv : v.toNat < 2 ^ width) : (setWord width v j w).toNat < 2 ^ width := by
  apply Nat.lt_pow_two_of_testBit
  intro i hi
  rw [BitVec.testBit_toNat]
  by_cases hb : i < 2048
  · have hold : v.getLsbD i = false := by
      rw [← BitVec.testBit_toNat]
      exact Nat.testBit_lt_two_pow (lt_of_lt_of_le hv (Nat.pow_le_pow_right (by decide) hi))
    have hout : ¬ (wordShift width j ≤ i ∧ i < wordShift width j + 32) := by
      simp only [wordShift]; omega
    rw [getLsbD_setWord _ _ _ _ _ hb, if_neg hout, hold]
  · exact BitVec.getLsbD_of_ge _ _ (by omega)

end Sys2Proof.Machine
end

