-- ==== Sys2Proof/Laws/Ops.lean ====
section
/-!
SUPPORT. What each shared operation can do, said once: acceptance and issue, a host transaction, a clock edge, an internal
operation of the engine, a completion, and a step. Later proofs cite these and do not unfold the operations.
-/

namespace Sys2Proof.Machine

/-! ### Commands -/

theorem exec_eq_issue (i : Instr) (s : State) : exec i s = .next (s.issue (opOf i) (emodeOf i)) := by
  cases i <;> rfl

theorem issue_busy {s : State} (h : s.status.busy = true) (o : Op) (m : EMode) : s.issue o m = s.setWbusy := by
  simp [State.issue, h]

theorem issue_idle {s : State} (h : s.status.busy = false) (o : Op) (m : EMode) : s.issue o m = s.accept o m := by
  simp [State.issue, h]

theorem issueCommand_busy {s : State} (h : s.status.busy = true) (v : Word) : issueCommand v s = .next s.setWbusy := by
  simp [issueCommand, h]

theorem issueCommand_illegal {s : State} {v : Word} {why : Illegal} (h : s.status.busy = false)
    (hd : decode v = .illegal why) : issueCommand v s = .next s.setIll := by
  simp [issueCommand, h, hd]

theorem issueCommand_command {s : State} {v : Word} {i : Instr} (h : s.status.busy = false)
    (hd : decode v = .command i) : issueCommand v s = .next (s.accept (opOf i) (emodeOf i)) := by
  simp [issueCommand, h, hd, exec_eq_issue, issue_idle h]

/-! ### The register map -/

@[simp] theorem target_cfg (n : Nat) : target n 0x000#12 = .cfg := rfl
@[simp] theorem target_cmd (n : Nat) : target n 0x004#12 = .cmd := rfl
@[simp] theorem target_status (n : Nat) : target n 0x008#12 = .status := rfl
@[simp] theorem target_ctrl (n : Nat) : target n 0x00C#12 = .ctrl := rfl

/-- Inversion of the register map: one offset for each control register, a used word for each operand word. -/
theorem target_inv (n : Nat) (a : Offset) :
    match target n a with
    | .cfg => a = 0x000#12
    | .cmd => a = 0x004#12
    | .status => a = 0x008#12
    | .ctrl => a = 0x00C#12
    | .operand r j => windowReg a = some r ∧ windowWord a = j ∧ j < n
    | .unmapped => True := by
  by_cases h0 : a = 0x000#12
  · subst h0; rfl
  by_cases h1 : a = 0x004#12
  · subst h1; rfl
  by_cases h2 : a = 0x008#12
  · subst h2; rfl
  by_cases h3 : a = 0x00C#12
  · subst h3; rfl
  simp only [target, h0, h1, h2, h3, if_false]
  cases hr : windowReg a with
  | none => trivial
  | some r =>
    by_cases hj : windowWord a < n
    · simp [hj]
    · simp [hj]

theorem target_eq_cmd {n : Nat} {a : Offset} (h : target n a = .cmd) : a = 0x004#12 := by
  simpa [h] using target_inv n a

theorem target_eq_status {n : Nat} {a : Offset} (h : target n a = .status) : a = 0x008#12 := by
  simpa [h] using target_inv n a

theorem target_eq_ctrl {n : Nat} {a : Offset} (h : target n a = .ctrl) : a = 0x00C#12 := by
  simpa [h] using target_inv n a

theorem target_eq_operand {n : Nat} {a : Offset} {r : OperandReg} {j : Nat} (h : target n a = .operand r j) :
    windowReg a = some r ∧ windowWord a = j ∧ j < n := by
  simpa [h] using target_inv n a

/-! ### Host transactions -/

/-- The access rule in numbers: four bytes at a multiple of four (20_memory.md R67). -/
theorem accessOk_iff (tr : Transaction) : tr.accessOk = true ↔ tr.size = 2#2 ∧ tr.addr.toNat % 4 = 0 := by
  simp only [Transaction.accessOk, Bool.and_eq_true, beq_iff_eq]
  refine and_congr_right fun _ => ?_
  rw [← BitVec.toNat_inj]
  simp

theorem store_accessOk {a : Offset} (v : Word) (h : a.toNat % 4 = 0) : (Transaction.store a v).accessOk = true :=
  (accessOk_iff _).2 ⟨rfl, h⟩

theorem transact_store {a : Offset} (v : Word) (now : SetNow) (s : State) (h : a.toNat % 4 = 0) :
    transact (Transaction.store a v) now s = hostWrite a v now (s.respond Response.written) := by
  unfold transact
  rw [if_neg (by simp [store_accessOk v h])]
  exact if_pos rfl

theorem transact_read {tr : Transaction} (now : SetNow) (s : State) (ha : tr.accessOk = true) (hw : tr.write = false) :
    transact tr now s = .next (s.respond { rdata := s.windowRead tr.addr, err := false }) := by
  unfold transact
  rw [if_neg (by simp [ha]), if_neg (by simp [hw])]

theorem transact_busError {tr : Transaction} (now : SetNow) (s : State) (ha : tr.accessOk = false) :
    transact tr now s = .next (s.respond Response.busError) := by
  unfold transact
  rw [if_pos (by simp [ha])]

theorem hostWrite_cmd (v : Word) (now : SetNow) (s : State) : hostWrite 0x004#12 v now s = issueCommand v s := rfl

/-- Every effect a transaction can have (20_memory.md R67 to R71; 40_command_lifecycle.md R110). -/
inductive Transacted (tr : Transaction) (now : SetNow) (s : State) : State → Prop where
  /-- A read, a refused transaction, or a write that is ignored: only the response. -/
  | answered (r : Response) : Transacted tr now s (s.respond r)
  | status : tr.accessOk = true → tr.write = true → tr.addr = 0x008#12 →
      Transacted tr now s
        { s with rsp := some Response.written, status := s.status.w1c tr.wdata now }
  | ctrl : tr.accessOk = true → tr.write = true → tr.addr = 0x00C#12 →
      Transacted tr now s { s with rsp := some Response.written, ie := tr.wdata.getLsbD 0 }
  | droppedCommand : tr.accessOk = true → tr.write = true → tr.addr = 0x004#12 → s.status.busy = true →
      Transacted tr now s (s.respond Response.written).setWbusy
  | droppedWord (r : OperandReg) (j : Nat) : tr.accessOk = true → tr.write = true →
      target s.params.nwords tr.addr = .operand r j → r ≠ .result → s.status.busy = true →
      Transacted tr now s (s.respond Response.written).setWbusy
  | stored (r : OperandReg) (j : Nat) : tr.accessOk = true → tr.write = true →
      target s.params.nwords tr.addr = .operand r j → r ≠ .result → s.status.busy = false →
      Transacted tr now s
        ((s.respond Response.written).setReg r (setWord s.params.width (s.reg r) j tr.wdata))
  | illegal (why : Illegal) : tr.accessOk = true → tr.write = true → tr.addr = 0x004#12 → s.status.busy = false →
      decode tr.wdata = .illegal why → Transacted tr now s (s.respond Response.written).setIll
  | accepted (i : Instr) : tr.accessOk = true → tr.write = true → tr.addr = 0x004#12 → s.status.busy = false →
      decode tr.wdata = .command i →
      Transacted tr now s ((s.respond Response.written).accept (opOf i) (emodeOf i))

@[simp] theorem State.respond_reg (s : State) (r : Response) (q : OperandReg) : (s.respond r).reg q = s.reg q := by
  cases q <;> rfl

/-- A transaction always answers a next state, and it is one of `Transacted`'s. -/
theorem transact_cases (tr : Transaction) (now : SetNow) (s : State) :
    ∃ t, transact tr now s = .next t ∧ Transacted tr now s t := by
  unfold transact
  by_cases ha : tr.accessOk = true
  swap
  · exact ⟨_, if_pos (by simp [ha]), .answered _⟩
  by_cases hw : tr.write = true
  swap
  · exact ⟨_, by rw [if_neg (by simp [ha]), if_neg hw], .answered _⟩
  simp only [ha, hw, Bool.not_true, Bool.false_eq_true, if_false, if_true, hostWrite, State.respond_params]
  cases ht : target s.params.nwords tr.addr with
  | cfg => exact ⟨_, rfl, .answered _⟩
  | unmapped => exact ⟨_, rfl, .answered _⟩
  | status => exact ⟨_, rfl, .status ha hw (target_eq_status ht)⟩
  | ctrl => exact ⟨_, rfl, .ctrl ha hw (target_eq_ctrl ht)⟩
  | cmd =>
    by_cases hb : s.status.busy = true
    · exact ⟨_, issueCommand_busy (s := s.respond Response.written) hb _, .droppedCommand ha hw (target_eq_cmd ht) hb⟩
    · have hb' : s.status.busy = false := by simpa using hb
      rcases hd : decode tr.wdata with i | why
      · exact ⟨_, issueCommand_command (s := s.respond Response.written) hb' hd,
          .accepted i ha hw (target_eq_cmd ht) hb' hd⟩
      · exact ⟨_, issueCommand_illegal (s := s.respond Response.written) hb' hd,
          .illegal why ha hw (target_eq_cmd ht) hb' hd⟩
  | operand r j =>
    have key : r ≠ .result → ∃ t, Host.Outcome.next (φ := Fault) (ρ := Refusal)
        ((s.respond Response.written).operandWrite r j tr.wdata) = .next t ∧ Transacted tr now s t := by
      intro hr
      refine ⟨_, rfl, ?_⟩
      unfold State.operandWrite
      by_cases hb : s.status.busy = true
      · simpa [hb] using Transacted.droppedWord r j ha hw ht hr hb
      · simpa [hb] using Transacted.stored r j ha hw ht hr (by simpa using hb)
    cases r with
    | result => exact ⟨_, rfl, .answered _⟩
    | opa => exact key (by decide)
    | opb => exact key (by decide)
    | mod => exact key (by decide)
    | exp => exact key (by decide)

/-- No transaction changes the parameters, RESULT, the schedule, or the multiplier's registers. -/
theorem Transacted.frame {tr : Transaction} {now : SetNow} {s t : State} (h : Transacted tr now s t) :
    t.params = s.params ∧ t.result = s.result ∧ t.schedule = s.schedule ∧ t.sq = s.sq ∧ t.sqb = s.sqb ∧
      t.prod = s.prod ∧ t.rem = s.rem ∧ t.draws = s.draws := by
  cases h with
  | stored r j _ _ _ hr _ => cases r <;> simp_all [State.setReg, State.respond]
  | _ => simp [State.respond]

/-- A transaction that finds the core busy leaves the command in flight and its operands alone. -/
theorem Transacted.busy {tr : Transaction} {now : SetNow} {s t : State} (h : Transacted tr now s t)
    (hb : s.status.busy = true) :
    sameOperands s t ∧ t.active = s.active ∧ t.phase = s.phase ∧ t.cyc = s.cyc ∧ t.iter = s.iter ∧ t.acc = s.acc ∧
      t.status.busy = true ∧ t.status.lastop = s.status.lastop ∧ t.status.lastem = s.status.lastem := by
  cases h <;> simp_all [sameOperands]

/-! ### The unit in flight -/

/-- What an internal operation does: nothing, or one of the two halves of an iteration. -/
theorem work_cases (s : State) :
    s.work = s ∨ (s.phase = .expSquare ∧ 0 < s.iter ∧ s.work = s.squareStep) ∨
      (∃ i, s.phase = .expMultiply ∧ s.iter = i + 1 ∧ s.work = s.multiplyStep i) := by
  unfold State.work
  split <;> simp_all

/-- What the internal operations of a unit never change: everything the host can see, and CYC and ACTIVE. -/
structure SameOutside (s t : State) : Prop where
  params : t.params = s.params
  opa : t.opa = s.opa
  opb : t.opb = s.opb
  mod : t.mod = s.mod
  exp : t.exp = s.exp
  result : t.result = s.result
  status : t.status = s.status
  ie : t.ie = s.ie
  cyc : t.cyc = s.cyc
  active : t.active = s.active
  rsp : t.rsp = s.rsp
  schedule : t.schedule = s.schedule

theorem SameOutside.refl (s : State) : SameOutside s s := ⟨rfl, rfl, rfl, rfl, rfl, rfl, rfl, rfl, rfl, rfl, rfl, rfl⟩

theorem SameOutside.trans {s t u : State} (h : SameOutside s t) (k : SameOutside t u) : SameOutside s u :=
  ⟨k.params.trans h.params, k.opa.trans h.opa, k.opb.trans h.opb, k.mod.trans h.mod, k.exp.trans h.exp,
    k.result.trans h.result, k.status.trans h.status, k.ie.trans h.ie, k.cyc.trans h.cyc, k.active.trans h.active,
    k.rsp.trans h.rsp, k.schedule.trans h.schedule⟩

/-- `any_W` is the low `W` bits of what the same draw leaves in REM. -/
theorem anyRem_mod (s : State) : s.anyRem % 2 ^ s.params.width = s.anyW :=
  Nat.mod_mod_of_dvd _ (pow_dvd_pow 2 (Nat.le_succ _))

theorem anyRem_lt (s : State) : s.anyRem < 2 ^ (s.params.width + 1) := Nat.mod_lt _ (by positivity)

/-- What a use of the unit answers, in an admissible instance whose MOD keeps its width: `ModMul` with the free value
`any_W` (42_modular_multiplier.md R151, R155). -/
theorem multiply_unitResult {s : State} (hp : s.params.Wf) (hm : s.mod.toNat < 2 ^ s.params.width) (a b : Operand) :
    (s.multiply a b).unitResult.toNat = modMul a.toNat b.toNat s.mod.toNat s.anyW := by
  have hW : 2 ^ s.params.width ≤ 2 ^ 2048 := Nat.pow_le_pow_right (by decide) hp.2.2.1
  have key : (s.multiply a b).unitResult.toNat =
      modMul a.toNat b.toNat s.mod.toNat s.anyRem % 2 ^ 2049 % 2 ^ s.params.width % 2 ^ 2048 := by
    simp only [State.unitResult, State.multiply_rem, State.multiply_params, BitVec.toNat_ofNat]
  have hr := anyRem_lt s
  rw [pow_succ] at hr
  rw [key, Nat.mod_eq_of_lt (a := _ % 2 ^ s.params.width) ((Nat.mod_lt _ (by positivity)).trans_le hW), modMul, modMul]
  split
  · rw [Nat.mod_eq_of_lt (a := s.anyRem) (by omega), anyRem_mod]
  · have h := Nat.mod_lt (multiplyFull a.toNat b.toNat) (Nat.pos_of_ne_zero ‹_›)
    rw [Nat.mod_eq_of_lt (b := 2 ^ 2049) (by omega), Nat.mod_eq_of_lt (by omega)]

/-- A use of the unit keeps REM within its `W+1` bits (10_state.md R33). -/
theorem multiply_rem_lt {s : State} (hm : s.mod.toNat < 2 ^ s.params.width) (a b : Operand) :
    (s.multiply a b).rem.toNat < 2 ^ (s.params.width + 1) := by
  rw [State.multiply_rem, BitVec.toNat_ofNat, modMul]
  refine (Nat.mod_le _ _).trans_lt ?_
  split
  · exact anyRem_lt s
  · have h := Nat.mod_lt (multiplyFull a.toNat b.toNat) (Nat.pos_of_ne_zero ‹_›)
    rw [pow_succ]; omega

theorem multiply_outside (s : State) (a b : Operand) : SameOutside s (s.multiply a b) := by constructor <;> rfl

theorem work_outside (s : State) : SameOutside s s.work := by
  rcases work_cases s with h | ⟨-, -, h⟩ | ⟨i, -, -, h⟩ <;> rw [h]
  · exact .refl s
  · constructor <;> rfl
  · constructor <;> rfl

theorem workFor_outside (n : Nat) : ∀ s : State, SameOutside s (s.workFor n) := by
  induction n with
  | zero => exact fun s => .refl s
  | succ n ih => exact fun s => (work_outside s).trans (ih s.work)

theorem finish_outside (s : State) : SameOutside s s.finish := by
  unfold State.finish
  split
  · exact .refl s
  · exact multiply_outside _ _ _
  · exact workFor_outside _ s
  · exact workFor_outside _ s

/-- The window reads the same after anything the host cannot see. -/
theorem SameOutside.windowRead {s t : State} (h : SameOutside s t) (a : Offset) : t.windowRead a = s.windowRead a := by
  simp only [State.windowRead, h.params, h.status, h.ie]
  cases target s.params.nwords a with
  | operand r j => cases r <;> simp [State.reg, h.opa, h.opb, h.mod, h.exp, h.result]
  | _ => rfl

/-! ### Completion and the clock -/

/-- The value a completion writes, in the state at completion (40_command_lifecycle.md R119). -/
theorem finish_commandResult (s : State) (c : Active) (x : Nat) : s.finish.commandResult c x = s.commandResult c x := by
  have h := finish_outside s
  simp [State.commandResult, h.opa, h.opb, h.mod, h.exp]

@[simp] theorem complete_result (s : State) (c : Active) :
    (s.complete c).result = BitVec.ofNat 2048 (s.commandResult c s.finish.anyW) := by
  simp [State.complete, finish_commandResult]

@[simp] theorem complete_status (s : State) (c : Active) :
    (s.complete c).status = s.status.completed (eqBit s.mod.toNat 0) := by
  simp [State.complete, (finish_outside s).status, (finish_outside s).mod]

@[simp] theorem complete_phase (s : State) (c : Active) : (s.complete c).phase = .idle := rfl
@[simp] theorem complete_active (s : State) (c : Active) : (s.complete c).active = none := rfl
@[simp] theorem complete_iter (s : State) (c : Active) : (s.complete c).iter = 0 := rfl
@[simp] theorem complete_cyc (s : State) (c : Active) : (s.complete c).cyc = 0 := rfl
@[simp] theorem complete_params (s : State) (c : Active) : (s.complete c).params = s.params := (finish_outside s).params
@[simp] theorem complete_opa (s : State) (c : Active) : (s.complete c).opa = s.opa := (finish_outside s).opa
@[simp] theorem complete_opb (s : State) (c : Active) : (s.complete c).opb = s.opb := (finish_outside s).opb
@[simp] theorem complete_mod (s : State) (c : Active) : (s.complete c).mod = s.mod := (finish_outside s).mod
@[simp] theorem complete_exp (s : State) (c : Active) : (s.complete c).exp = s.exp := (finish_outside s).exp
@[simp] theorem complete_ie (s : State) (c : Active) : (s.complete c).ie = s.ie := (finish_outside s).ie
@[simp] theorem complete_rsp (s : State) (c : Active) : (s.complete c).rsp = s.rsp := (finish_outside s).rsp
@[simp] theorem complete_schedule (s : State) (c : Active) : (s.complete c).schedule = s.schedule :=
  (finish_outside s).schedule

theorem clock_idle {s : State} (h : s.active = none) : s.clock = s := by simp [State.clock, h]

theorem clock_counts {s : State} {c : Active} (h : s.active = some c) (hc : 1 < s.cyc) :
    s.clock = { s with cyc := s.cyc - 1 } := by
  have : ¬ s.cyc ≤ 1 := by omega
  simp [State.clock, h, this]

theorem clock_completes {s : State} {c : Active} (h : s.active = some c) (hc : s.cyc ≤ 1) :
    s.clock = s.complete c := by
  simp [State.clock, h, hc]

/-- What a clock edge does. -/
theorem clock_cases (s : State) :
    (s.active = none ∧ s.clock = s) ∨ ∃ c, s.active = some c ∧
      ((1 < s.cyc ∧ s.clock = { s with cyc := s.cyc - 1 }) ∨ (s.cyc ≤ 1 ∧ s.clock = s.complete c)) := by
  by_cases h : s.active = none
  · exact .inl ⟨h, clock_idle h⟩
  · obtain ⟨c, h⟩ := Option.ne_none_iff_exists'.mp h
    refine .inr ⟨c, h, ?_⟩
    by_cases hc : s.cyc ≤ 1
    · exact .inr ⟨hc, clock_completes h hc⟩
    · exact .inl ⟨by omega, clock_counts h (by omega)⟩

@[simp] theorem clock_params (s : State) : s.clock.params = s.params := by
  rcases clock_cases s with ⟨-, h⟩ | ⟨c, -, ⟨-, h⟩ | ⟨-, h⟩⟩ <;> simp [h]

@[simp] theorem clock_opa (s : State) : s.clock.opa = s.opa := by
  rcases clock_cases s with ⟨-, h⟩ | ⟨c, -, ⟨-, h⟩ | ⟨-, h⟩⟩ <;> simp [h]

@[simp] theorem clock_opb (s : State) : s.clock.opb = s.opb := by
  rcases clock_cases s with ⟨-, h⟩ | ⟨c, -, ⟨-, h⟩ | ⟨-, h⟩⟩ <;> simp [h]

@[simp] theorem clock_mod (s : State) : s.clock.mod = s.mod := by
  rcases clock_cases s with ⟨-, h⟩ | ⟨c, -, ⟨-, h⟩ | ⟨-, h⟩⟩ <;> simp [h]

@[simp] theorem clock_exp (s : State) : s.clock.exp = s.exp := by
  rcases clock_cases s with ⟨-, h⟩ | ⟨c, -, ⟨-, h⟩ | ⟨-, h⟩⟩ <;> simp [h]

@[simp] theorem clock_ie (s : State) : s.clock.ie = s.ie := by
  rcases clock_cases s with ⟨-, h⟩ | ⟨c, -, ⟨-, h⟩ | ⟨-, h⟩⟩ <;> simp [h]

@[simp] theorem clock_rsp (s : State) : s.clock.rsp = s.rsp := by
  rcases clock_cases s with ⟨-, h⟩ | ⟨c, -, ⟨-, h⟩ | ⟨-, h⟩⟩ <;> simp [h]

@[simp] theorem clock_schedule (s : State) : s.clock.schedule = s.schedule := by
  rcases clock_cases s with ⟨-, h⟩ | ⟨c, -, ⟨-, h⟩ | ⟨-, h⟩⟩ <;> simp [h]

@[simp] theorem clock_ill (s : State) : s.clock.status.ill = s.status.ill := by
  rcases clock_cases s with ⟨-, h⟩ | ⟨c, -, ⟨-, h⟩ | ⟨-, h⟩⟩ <;> simp [h]

@[simp] theorem clock_wbusy (s : State) : s.clock.status.wbusy = s.status.wbusy := by
  rcases clock_cases s with ⟨-, h⟩ | ⟨c, -, ⟨-, h⟩ | ⟨-, h⟩⟩ <;> simp [h]

@[simp] theorem clock_lastop (s : State) : s.clock.status.lastop = s.status.lastop := by
  rcases clock_cases s with ⟨-, h⟩ | ⟨c, -, ⟨-, h⟩ | ⟨-, h⟩⟩ <;> simp [h]

@[simp] theorem clock_lastem (s : State) : s.clock.status.lastem = s.status.lastem := by
  rcases clock_cases s with ⟨-, h⟩ | ⟨c, -, ⟨-, h⟩ | ⟨-, h⟩⟩ <;> simp [h]

/-! ### What is scheduled next, and the port's response, do not matter to the units and the clock -/

theorem work_external (s : State) (es : List Event) (r : Option Response) :
    State.work { s with schedule := es, rsp := r } = { s.work with schedule := es, rsp := r } := by
  rcases s with ⟨p, a, b, m, e, x, st, ie, ph, cy, it, ac, acc, sq, sqb, pr, re, rs, sc, dr⟩
  cases ph <;> cases it <;> rfl

theorem workFor_external (es : List Event) (r : Option Response) (n : Nat) : ∀ s : State,
    State.workFor n { s with schedule := es, rsp := r } = { s.workFor n with schedule := es, rsp := r } := by
  induction n with
  | zero => exact fun _ => rfl
  | succ n ih => exact fun s => (congrArg _ (work_external s es r)).trans (ih s.work)

theorem finish_external (s : State) (es : List Event) (r : Option Response) :
    State.finish { s with schedule := es, rsp := r } = { s.finish with schedule := es, rsp := r } := by
  rcases s with ⟨p, a, b, m, e, x, st, ie, ph, cy, it, ac, acc, sq, sqb, pr, re, rs, sc, dr⟩
  cases ph
  · rfl
  · rfl
  · exact workFor_external es r _ ⟨p, a, b, m, e, x, st, ie, _, cy, it, ac, acc, sq, sqb, pr, re, rs, sc, dr⟩
  · exact workFor_external es r _ ⟨p, a, b, m, e, x, st, ie, _, cy, it, ac, acc, sq, sqb, pr, re, rs, sc, dr⟩

/-- A clock edge does the same whatever is scheduled after it and whatever the port last answered. -/
theorem clock_external (s : State) (es : List Event) (r : Option Response) :
    State.clock { s with schedule := es, rsp := r } = { s.clock with schedule := es, rsp := r } := by
  rcases clock_cases s with ⟨ha, h⟩ | ⟨c, ha, ⟨hc, h⟩ | ⟨hc, h⟩⟩ <;> rw [h]
  · exact clock_idle ha
  · exact clock_counts ha hc
  · have e : State.clock { s with schedule := es, rsp := r } = State.complete { s with schedule := es, rsp := r } c :=
      clock_completes ha hc
    rw [e]
    unfold State.complete
    rw [finish_external]
    rfl

/-- A transaction does the same whatever is scheduled after it. -/
theorem transact_schedule (tr : Transaction) (now : SetNow) (s : State) (es : List Event) :
    transact tr now { s with schedule := es } = mapNext (fun t => { t with schedule := es }) (transact tr now s) := by
  unfold transact
  split
  · rfl
  split
  swap
  · rfl
  unfold hostWrite
  simp only [State.respond_params]
  split <;> try rfl
  · cases hb : s.status.busy with
    | true => rw [issueCommand_busy (by exact hb), issueCommand_busy (by exact hb)]; rfl
    | false =>
      rcases hd : decode tr.wdata with i | why
      · rw [issueCommand_command (by exact hb) hd, issueCommand_command (by exact hb) hd]
        cases i <;> rfl
      · rw [issueCommand_illegal (by exact hb) hd, issueCommand_illegal (by exact hb) hd]; rfl
  · rename_i r j _ _
    cases hb : s.status.busy <;> cases r <;> simp [State.operandWrite, hb, mapNext] <;> rfl

/-! ### The step -/

/-- What an event does: always a next state, and one of these. -/
inductive Happened (s : State) : Event → State → Prop where
  | txn {tr t} : Transacted tr SetNow.nothing s t → Happened s (.txn tr) t
  | tick : Happened s .tick s.clock
  | cycleIdle {tr first t} : s.status.busy = false → Transacted tr SetNow.nothing s t → Happened s (.cycle tr first) t
  | cycleBefore {tr t} : s.status.busy = true → Transacted tr SetNow.nothing s t →
      Happened s (.cycle tr .transaction) t.clock
  | cycleAfter {tr t} : s.status.busy = true → Transacted tr s.setByClock s.clock t → Happened s (.cycle tr .clock) t
  | work : Happened s .work s.work
  | reset : Happened s .reset s.applyReset

theorem applyEvent_cases (e : Event) (s : State) : ∃ t, applyEvent e s = .next t ∧ Happened s e t := by
  cases e with
  | txn tr =>
    obtain ⟨t, h, k⟩ := transact_cases tr SetNow.nothing s
    exact ⟨t, h, .txn k⟩
  | tick => exact ⟨_, rfl, .tick⟩
  | work => exact ⟨_, rfl, .work⟩
  | reset => exact ⟨_, rfl, .reset⟩
  | cycle tr first =>
    cases hb : s.status.busy with
    | false =>
      obtain ⟨t, h, k⟩ := transact_cases tr SetNow.nothing s
      exact ⟨t, by simpa [applyEvent, sameCycle, hb] using h, .cycleIdle hb k⟩
    | true =>
      cases first with
      | transaction =>
        obtain ⟨t, h, k⟩ := transact_cases tr SetNow.nothing s
        exact ⟨t.clock, by simp [applyEvent, sameCycle, hb, h, mapNext], .cycleBefore hb k⟩
      | clock =>
        obtain ⟨t, h, k⟩ := transact_cases tr s.setByClock s.clock
        exact ⟨t, by simpa [applyEvent, sameCycle, hb] using h, .cycleAfter hb k⟩

/-- With nothing scheduled a step is a clock edge. -/
theorem step_silent {s : State} (h : s.schedule = []) : step s = .next s.clock := by
  have : s.popEvent = s := by
    cases s
    simp only [State.popEvent] at *
    rw [h]
    rfl
  simp only [step, h, nextEvent, applyEvent, this]

theorem step_of_txn {s : State} {tr : Transaction} {rest : List Event} (h : s.schedule = .txn tr :: rest) :
    step s = transact tr SetNow.nothing { s with schedule := rest } := by
  simp only [step, h, nextEvent, applyEvent, State.popEvent, List.tail_cons]

/-- Inversion of a step. -/
theorem step_cases {s t : State} (h : step s = .next t) : Happened s.popEvent (nextEvent s.schedule) t := by
  obtain ⟨u, hu, k⟩ := applyEvent_cases (nextEvent s.schedule) s.popEvent
  have : Host.Outcome.next (φ := Fault) (ρ := Refusal) u = .next t := hu.symm.trans h
  cases this
  exact k

end Sys2Proof.Machine
end

