-- ==== Sys2Proof/Laws/PerInstr.lean ====
section
/-!
SUPPORT. Statements made per command. The family `LegalEncoding` says that a command is well formed and that its word is
one of the legal words (30_encoding.md R93).
-/

namespace Sys2Proof.Laws

/-- The command is well formed and its word is legal. -/
def LegalEncoding.Statement (i : Instr) : Prop := i.wellFormed = true ∧ legal (encode i) = true

theorem LegalEncoding.modmul : LegalEncoding.Statement .modmul := ⟨rfl, by decide⟩
theorem LegalEncoding.modexp : LegalEncoding.Statement .modexp := ⟨rfl, by decide⟩
theorem LegalEncoding.modexpE64 : LegalEncoding.Statement .modexpE64 := ⟨rfl, by decide⟩
theorem LegalEncoding.modexpE32 : LegalEncoding.Statement .modexpE32 := ⟨rfl, by decide⟩

end Sys2Proof.Laws
end

