-- ==== Sys2Proof/Laws/Run.lean ====
section
/-!
SUPPORT. Runs of several steps, through the host's `Host.Core.run`: how a run begins, ends, and counts a silent command
down.
-/

namespace Sys2Proof.Machine

theorem run_zero (s : State) : Host.Core.run core 0 s = .next s := rfl

/-- A run begins with its first step. -/
theorem run_first {s t : State} (n : Nat) (h : step s = .next t) : Host.Core.run core (n + 1) s = Host.Core.run core n t := by
  have h' : core.step s = .next t := h
  simp only [Host.Core.run, h']

/-- A run ends with its last step. -/
theorem run_last (n : Nat) : ∀ {s t : State}, Host.Core.run core n s = .next t → Host.Core.run core (n + 1) s = step t := by
  induction n with
  | zero =>
    intro s t h
    have hs : s = t := by
      rw [run_zero] at h
      cases h
      rfl
    subst hs
    obtain ⟨u, hu, -⟩ := applyEvent_cases (nextEvent s.schedule) s.popEvent
    have hu : step s = .next u := hu
    rw [run_first 0 hu, run_zero, hu]
    rfl
  | succ n ih =>
    intro s t h
    obtain ⟨u, hu, -⟩ := applyEvent_cases (nextEvent s.schedule) s.popEvent
    have hu : step s = .next u := hu
    rw [run_first _ hu] at h
    rw [run_first _ hu, ih h]

/-- With a silent host a command in flight counts down, and nothing else changes until its last clock cycle. -/
theorem run_counts (c : Active) (n : Nat) :
    ∀ s : State, s.schedule = [] → s.active = some c → n < s.cyc →
      Host.Core.run core n s = .next { s with cyc := s.cyc - n } := by
  induction n with
  | zero => exact fun _ _ _ _ => rfl
  | succ n ih =>
    intro s hs ha hn
    have e : step s = .next { s with cyc := s.cyc - 1 } := by rw [step_silent hs, clock_counts ha (by omega)]
    rw [run_first n e, ih { s with cyc := s.cyc - 1 } hs ha (by change n < s.cyc - 1; omega)]
    simp only [Nat.sub_sub, Nat.add_comm 1 n]

end Sys2Proof.Machine
end

