-- ==== Sys2Proof/Tests/Slice0.lean ====
section
/-!
SUPPORT. Tests. Expected values come from 95_test_vectors.md (its ids are named) or from a rule's own example; none is the
model's answer. After them, one witness for the hypotheses of each obligation: concrete values that meet them together.
-/

namespace Sys2Proof.Tests

open Sys2Proof Sys2Proof.Machine

/-! ### Helpers -/

/-- A 256-bit core, idle, with the given operands. -/
def idle256 (a b m e : Nat) : State :=
  { State.reset with opa := BitVec.ofNat 2048 a, opb := BitVec.ofNat 2048 b, mod := BitVec.ofNat 2048 m,
                     exp := BitVec.ofNat 2048 e }

/-- A 64-bit instance with short latencies. -/
def small : Params := { width := 64, latModmul := 2, latModexpFull := 3, latModexpE64 := 3, latModexpE32 := 2 }

/-- It, idle, with OPA = 7, OPB = 9, EXP = 3 and the given MOD. -/
def idle (m : Nat) : State :=
  { State.resetOf small with opa := 7#2048, opb := 9#2048, mod := BitVec.ofNat 2048 m, exp := 3#2048 }

/-- It, with a command just accepted. -/
def busy (i : Instr) (m : Nat) : State := (idle m).accept (opOf i) (emodeOf i)

/-- It, with a command in its last clock cycle. -/
def last (i : Instr) (m : Nat) : State := { busy i m with cyc := 1 }

/-- The state with these events to come. -/
def coming (s : State) (es : List Event) : State := { s with schedule := es }

/-- What an outcome's next state shows. -/
def shown {α : Type} (f : State → α) (o : Host.Outcome State Fault Refusal) : Option α :=
  match o with
  | .next t => some (f t)
  | .fault _ => none
  | .refused _ => none

/-- RESULT and STATUS after the step that completes a command, for a 256-bit core with these operands. -/
def completed (i : Instr) (a b m e : Nat) : Option (Nat × Word) :=
  shown (fun t => (t.result.toNat, t.status.toWord))
    (step { (idle256 a b m e).accept (opOf i) (emodeOf i) with cyc := 1 })

/-- STATUS and the response after one transaction. -/
def afterTxn (s : State) (t : Transaction) : Option (Word × Option Response) :=
  shown (fun u => (u.status.toWord, u.rsp)) (step (coming s [.txn t]))

/-! ### Decoding: words written out bit by bit (30_encoding.md R90, R98) -/

theorem test_decode_modmul : decode 0b00000000000000000000000000_00_0001#32 = .command .modmul := by decide
theorem test_decode_modexp : decode 0b00000000000000000000000000_00_0010#32 = .command .modexp := by decide
theorem test_decode_modexpE64 : decode 0b00000000000000000000000000_01_0010#32 = .command .modexpE64 := by decide
theorem test_decode_modexpE32 : decode 0b00000000000000000000000000_10_0010#32 = .command .modexpE32 := by decide

/-- L2-C5 to L2-C8. -/
theorem test_decode_illegal_fields :
    [0x00#32, 0x03#32, 0x32#32, 0x11#32].map decode =
      [.illegal .reservedOp, .illegal .reservedOp, .illegal .reservedEmode, .illegal .modmulWithEmode] := by decide

/-- L2-C9 to L2-C11. -/
theorem test_decode_illegal_reserved :
    [0x42#32, 0x80000001#32, 0x0F#32].map decode =
      [.illegal .reservedBitSet, .illegal .reservedBitSet, .illegal .reservedOp] := by decide

theorem test_encode :
    [Instr.modmul, .modexp, .modexpE64, .modexpE32].map encode = [0x01#32, 0x02#32, 0x12#32, 0x22#32] := by decide

theorem test_decodeTableWord :
    decodeTableWord 32 0x12 = some .modexpE64 ∧ decodeTableWord 32 0x03 = none ∧ decodeTableWord 40 0x12 = none := by
  decide

/-! ### Well-formedness: an ill-formed term for each check (00_scope.md R6, R9; 30_encoding.md R93) -/

theorem smoke_params_wf : Params.observed256.Wf ∧ Params.observed2048.Wf ∧ small.Wf := by decide
theorem smoke_width_multiple : ¬ Params.Wf { Params.observed256 with width := 100 } := by decide
theorem smoke_width_low : ¬ Params.Wf { Params.observed256 with width := 32 } := by decide
theorem smoke_width_high : ¬ Params.Wf { Params.observed256 with width := 2080 } := by decide
theorem smoke_latModmul : ¬ Params.Wf { Params.observed256 with latModmul := 0 } := by decide
theorem smoke_latModexpFull : ¬ Params.Wf { Params.observed256 with latModexpFull := 0 } := by decide
theorem smoke_latModexpE64 : ¬ Params.Wf { Params.observed256 with latModexpE64 := 0 } := by decide
theorem smoke_latModexpE32 : ¬ Params.Wf { Params.observed256 with latModexpE32 := 0 } := by decide
theorem smoke_fields_rsvd : legalFields 1#26 0b00#2 0x1#4 = false := by decide
theorem smoke_fields_op : legalFields 0#26 0b00#2 0x3#4 = false := by decide
theorem smoke_fields_modmul_emode : legalFields 0#26 0b01#2 0x1#4 = false := by decide
theorem smoke_fields_modexp_emode : legalFields 0#26 0b11#2 0x2#4 = false := by decide
theorem smoke_instr : Instr.wellFormed .modmul = true := by decide

/-! ### Commands: acceptance and completion -/

/-- L2-C1 to L2-C4: STATUS at acceptance. -/
theorem test_accepted_status :
    [0x01, 0x02, 0x12, 0x22].map (fun w => shown (fun t => t.status.toWord) (step (State.reset.withFetchWord 32 w))) =
      [some 0x0101#32, some 0x0201#32, some 0x1201#32, some 0x2201#32] := by decide +kernel

/-- L2-M1, L2-M8 (`a ≥ m`). -/
theorem test_modmul :
    completed .modmul 7 9 10 0 = some (3, 0x0102#32) ∧ completed .modmul 250 3 7 0 = some (1, 0x0102#32) := by
  decide +kernel

/-- L2-M9: the largest product near the top. -/
theorem test_modmul_top :
    completed .modmul (2 ^ 256 - 1) (2 ^ 256 - 1) (2 ^ 256 - 189) 0 = some (0x8a10, 0x0102#32) := by decide +kernel

/-- L2-E15: only the exponent's top bit is 1. -/
theorem test_modexp : completed .modexp 3 0 (2 ^ 255 - 19) (2 ^ 255) = some (0xcfd41b91, 0x0202#32) := by decide +kernel

/-- L2-E20: bit 32 of EXP counts in FULL, not in E32. -/
theorem test_modexp_wide : completed .modexp 2 0 100 (2 ^ 32 + 3) = some (88, 0x0202#32) := by decide +kernel

/-- L2-E8: an exponent above 32 bits. -/
theorem test_modexpE64 : completed .modexpE64 3 0 1000 (2 ^ 32) = some (321, 0x1202#32) := by decide +kernel

/-- L2-E14: every exponent bit is 1. -/
theorem test_modexpE64_ones : completed .modexpE64 2 0 (2 ^ 61 - 1) (2 ^ 64 - 1) = some (0x8000, 0x1202#32) := by
  decide +kernel

/-- L2-E12. -/
theorem test_modexpE32 : completed .modexpE32 4 0 497 13 = some (445, 0x2202#32) := by decide +kernel

/-- L2-E3 (`2^0 mod 100 = 1`, 90_conflicts.md C2), L2-E20. -/
theorem test_modexpE32_corners :
    completed .modexpE32 2 0 100 0 = some (1, 0x2202#32) ∧
      completed .modexpE32 2 0 100 (2 ^ 32 + 3) = some (8, 0x2202#32) := by decide +kernel

/-- L2-M13, L2-E21: a zero modulus sets MZ; RESULT is left open. -/
theorem test_zero_modulus :
    [Instr.modmul, .modexp, .modexpE64, .modexpE32].map (fun i => shown (fun t => t.status.toWord) (step (last i 0))) =
      [some 0x0106#32, some 0x0206#32, some 0x1206#32, some 0x2206#32] := by decide +kernel

/-! ### Primitives and the decoder -/

/-- L2-P1 to L2-P4. -/
theorem test_carry :
    addWithCarry 256 (2 ^ 256 - 1) 1 false = (0, true) ∧
      addWithCarry 256 (2 ^ 256 - 1) (2 ^ 256 - 1) true = (2 ^ 256 - 1, true) ∧
      subWithBorrow 257 5 7 false = (2 ^ 257 - 2, true) ∧ subWithBorrow 257 7 7 false = (0, false) := by decide +kernel

/-- L2-P5 to L2-P7. -/
theorem test_select :
    multiplyFull (2 ^ 256 - 1) (2 ^ 256 - 1) = 2 ^ 512 - 2 ^ 257 + 1 ∧ selectMasked 256 true 8 4 = 8 ∧
      selectMasked 256 false 8 4 = 4 ∧ geBit 256 7 7 = true ∧ geBit 256 6 7 = false := by decide +kernel

/-- L2-D5: the order in which a 64-bit exponent is consumed. -/
theorem test_consumed :
    (List.range 64).map (consumedBit (BitVec.ofNat 2048 (2 ^ 32 + 3)) 64) =
      List.replicate 31 false ++ [true] ++ List.replicate 30 false ++ [true, true] := by decide +kernel

/-- L2-R3, words 0 and 7; L2-R6, word 7. -/
theorem test_words :
    wordOf 256 (BitVec.ofNat 2048 (2 ^ 255 - 19)) 0 = 0x7fffffff#32 ∧
      wordOf 256 (BitVec.ofNat 2048 (2 ^ 255 - 19)) 7 = 0xffffffed#32 ∧
      wordOf 256 (BitVec.ofNat 2048 (fromBigEndianBytes (List.replicate 28 0#8 ++ [1#8, 2#8, 3#8, 4#8]))) 7
        = 0x01020304#32 := by decide +kernel

/-- L2-R7, L2-R8. -/
theorem test_cfg : cfgWord Params.observed256 = 0x00170008#32 ∧ cfgWord Params.observed2048 = 0x00170040#32 := by decide

/-! ### Flags, errors and the interrupt -/

/-- L2-X1, L2-X2: a bus error. -/
theorem test_bus_error :
    afterTxn State.reset { write := true, addr := 0x102#12, size := 2#2, wdata := 5#32 } =
        some (0#32, some { rdata := 0#32, err := true }) ∧
      afterTxn State.reset { write := false, addr := 0x008#12, size := 0#2, wdata := 0#32 } =
        some (0#32, some { rdata := 0#32, err := true }) := by decide +kernel

/-- L2-X3, L2-X7: an illegal word, idle and busy. -/
theorem test_illegal :
    (afterTxn State.reset (commandWrite 0x3#32)).map Prod.fst = some 0x08#32 ∧
      (afterTxn (busy .modmul 10) (commandWrite 0x3#32)).map Prod.fst = some 0x0111#32 := by decide +kernel

/-- L2-X11: STATUS 0x202 after a write of all ones. -/
theorem test_clear :
    afterTxn { State.reset with status := { Status.reset with done := true, lastop := 0x2#4 } }
      (Transaction.store 0x008#12 0xFFFFFFFF#32) = some (0x0200#32, some { rdata := 0#32, err := false }) := by
  decide +kernel

/-- L2-X6 (an operand word), L2-X8 (RESULT), L2-X9 (reserved): writes while BUSY; W = 64, so OPA's last word is 0x104. -/
theorem test_writes_while_busy :
    [0x104#12, 0x504#12, 0x600#12].map (fun a =>
        (afterTxn (busy .modexp 10) (Transaction.store a 9#32)).map Prod.fst) =
      [some 0x0211#32, some 0x0201#32, some 0x0201#32] := by decide +kernel

/-- L2-X10: `irq` is a level. -/
theorem test_irq :
    shown State.irq (step (coming { State.reset with status := { Status.reset with done := true } }
      [.txn (Transaction.store 0x00C#12 1#32)])) = some true := by decide +kernel

/-- L2-R9: a read of an unused word. -/
theorem test_raz :
    shown State.rsp (step (coming (idle256 7 0 0 0) [.txn (Transaction.read 0x120#12)])) =
      some (some { rdata := 0#32, err := false }) := by decide +kernel

/-- P3's race, one step of it: the write before the completion (A) or after it (B), STATUS and OPA's last word. -/
theorem test_race :
    [First.transaction, .clock].map (fun f =>
        shown (fun t => (t.status.toWord, t.windowRead 0x104#12))
          (step (coming (last .modexpE32 0) [.cycle (Transaction.store 0x104#12 9#32) f]))) =
      [some (0x2216#32, 7#32), some (0x2206#32, 9#32)] := by decide +kernel

/-! ### The invariants hold of the witnesses' states -/

theorem inv_coming {s : State} (h : s.Inv) (es : List Event) : (coming s es).Inv := by
  refine ⟨h.params, fun r => by have := h.operands r; cases r <;> exact this, h.acc, h.sq, h.sqb, h.prod, h.rem, h.busyPhase,
    h.busyActive, h.idle, h.busyFlags, fun c hc => ?_⟩
  obtain ⟨m, k⟩ := h.inFlight c hc
  exact ⟨m, k.width, k.lastop, k.lastem, k.cycPos, k.cycLe, k.iterLe, k.modmul, k.modexp⟩

theorem idle_inv (es : List Event) : (coming (idle 10) es).Inv := by
  refine inv_coming ⟨by decide, fun r => ?_, by decide +kernel, by decide +kernel, by decide +kernel, by decide +kernel,
    by decide +kernel, by decide, by decide, fun _ => ⟨rfl, rfl⟩, fun h => ?_, fun _ h => ?_⟩ es
  · cases r <;> decide +kernel
  · cases h
  · cases h

theorem busy_inv (i : Instr) (m : Nat) (h : m = 0 ∨ m = 10) (es : List Event) : (coming (busy i m) es).Inv := by
  refine inv_coming ?_ es
  rcases h with rfl | rfl <;> cases i <;>
    refine ⟨by decide, fun r => ?_, by decide +kernel, by decide +kernel, by decide +kernel, by decide +kernel,
      by decide +kernel, by decide, by decide, fun h => ?_, fun _ => ⟨rfl, rfl⟩, fun c hc => ?_⟩
  all_goals first
    | (cases r <;> decide +kernel)
    | cases h
    | (cases hc
       first
         | exact ⟨.full, by decide, by decide, by decide, by decide, by decide, by decide, by decide, by decide⟩
         | exact ⟨.e64, by decide, by decide, by decide, by decide, by decide, by decide, by decide, by decide⟩
         | exact ⟨.e32, by decide, by decide, by decide, by decide, by decide, by decide, by decide, by decide⟩)

theorem last_inv (i : Instr) (m : Nat) (h : m = 0 ∨ m = 10) (es : List Event) : (coming (last i m) es).Inv := by
  have k := busy_inv i m h es
  have hb : (busy i m).status.busy = true := by cases i <;> rfl
  refine ⟨k.params, fun r => by have := k.operands r; cases r <;> exact this, k.acc, k.sq, k.sqb, k.prod, k.rem, k.busyPhase,
    k.busyActive, fun h => ?_, k.busyFlags, fun c hc => ?_⟩
  · have h : (busy i m).status.busy = false := h
    rw [hb] at h
    cases h
  · obtain ⟨e, f⟩ := k.inFlight c hc
    exact ⟨e, f.width, f.lastop, f.lastem, Nat.one_pos, Nat.le_trans f.cycPos f.cycLe, f.iterLe, f.modmul, f.modexp⟩

theorem one_toNat : (1#2048).toNat = 1 := by decide +kernel

/-- Just accepted, ACC is 1 and no bit is consumed. -/
theorem busy_engineInv (i : Instr) (m : Nat) (es : List Event) : (coming (busy i m) es).EngineInv := by
  intro c hc ho _
  cases i <;> cases hc
  · cases ho
  all_goals
    refine ⟨?_, fun h => Phase.noConfusion h⟩
    rw [if_pos (by rfl)]
    exact one_toNat

theorem idle_engineInv (es : List Event) : (coming (idle 10) es).EngineInv := fun _ h => nomatch h

/-! ### Witnesses: each meets all hypotheses of the obligation it is named after -/

/-- A transaction that stores to a word, as the next event. -/
def storing (s : State) (a : Offset) (v : Word) : State := coming s [.txn (Transaction.store a v)]

theorem witness_DecodeAgreesWithEncode : decode 0x12#32 = .command .modexpE64 ∧ encode .modexpE64 = 0x12#32 := by decide

theorem witness_StepRunsTheCommandWritten :
    (storing (idle 10) 0x004#12 0x22#32).schedule =
        .txn { write := true, addr := 0x004#12, size := 2#2, wdata := 0x22#32 } :: [] ∧
      decode 0x22#32 = .command .modexpE32 ∧ decodeTableWord 32 0x22 = some .modexpE32 := by decide

theorem witness_ModmulIsAccepted : (idle 10).status.busy = false := rfl
theorem witness_ModexpIsAccepted : (idle 0).status.busy = false := rfl

theorem witness_CommandWhileBusyIsDropped :
    (storing (busy .modexp 10) 0x004#12 0x3#32).status.busy = true ∧
      (storing (busy .modexp 10) 0x004#12 0x3#32).schedule = .txn (Transaction.store 0x004#12 0x3#32) :: [] := by decide

theorem witness_CommandsLeaveTheRestUnchanged :
    (∃ t, exec .modmul (idle 10) = .next t) ∧ (idle 10).status.busy = false ∧
      (∃ t, exec .modmul (busy .modexp 10) = .next t) ∧ (busy .modexp 10).status.busy = true ∧ (0x500#12) ≠ 0x008#12 :=
  ⟨⟨_, rfl⟩, rfl, ⟨_, rfl⟩, rfl, by decide⟩

theorem witness_CompletionWritesResultAndStatus :
    (coming (last .modexpE64 10) [.tick, .work]).Inv ∧
      nextEvent (coming (last .modexpE64 10) [.tick, .work]).schedule = .tick ∧
      (coming (last .modexpE64 10) [.tick, .work]).active = some { op := .modexp, width := 64 } ∧
      (coming (last .modexpE64 10) [.tick, .work]).cyc = 1 ∧
      (coming (last .modexpE64 10) [.tick, .work]).mod ≠ 0#2048 ∧ nextEvent [] = .tick :=
  ⟨last_inv _ _ (.inr rfl) _, rfl, rfl, rfl, by decide +kernel, rfl⟩

theorem witness_ZeroModulusCompletesWithMz :
    (coming (last .modmul 0) [.tick, .reset]).Inv ∧ nextEvent (coming (last .modmul 0) [.tick, .reset]).schedule = .tick ∧
      (coming (last .modmul 0) [.tick, .reset]).active = some { op := .modmul, width := 64 } ∧
      (coming (last .modmul 0) [.tick, .reset]).cyc = 1 ∧ (coming (last .modmul 0) [.tick, .reset]).mod = 0#2048 :=
  ⟨last_inv _ _ (.inl rfl) _, rfl, rfl, rfl, by decide +kernel⟩

theorem witness_ZeroModulusResultIsFree : 0 < 1 := Nat.one_pos

theorem witness_EveryCommandRunsToItsResult :
    (coming (idle 10) []).Inv ∧ (coming (idle 10) []).status.busy = false ∧ (coming (idle 10) []).schedule = [] ∧
      (coming (idle 10) []).mod ≠ 0#2048 :=
  ⟨idle_inv _, rfl, rfl, by decide +kernel⟩

/-- A completing core to which the host writes a command in the same cycle. -/
def racing (first : First) : State :=
  coming (last .modexp 10) [.cycle (Transaction.store 0x004#12 (encode .modmul)) first]

/-- Each clause: no clock edge, an edge with cycles left, an edge in the last cycle (alone, and with a command after it). -/
theorem witness_CommandInFlightUsesOperandsOfAcceptance :
    (∃ t, (coming (busy .modexp 10) [.work]).Inv ∧
      (coming (busy .modexp 10) [.work]).active = some { op := .modexp, width := 64 } ∧
      step (coming (busy .modexp 10) [.work]) = .next t ∧ nextEvent (coming (busy .modexp 10) [.work]).schedule ≠ .reset ∧
      (nextEvent (coming (busy .modexp 10) [.work]).schedule).hasEdge = false) ∧
    (∃ t, (coming (busy .modmul 10) [.tick, .work]).Inv ∧
      (coming (busy .modmul 10) [.tick, .work]).active = some { op := .modmul, width := 64 } ∧
      step (coming (busy .modmul 10) [.tick, .work]) = .next t ∧
      nextEvent (coming (busy .modmul 10) [.tick, .work]).schedule ≠ .reset ∧
      (nextEvent (coming (busy .modmul 10) [.tick, .work]).schedule).hasEdge = true ∧
      1 < (coming (busy .modmul 10) [.tick, .work]).cyc) ∧
    (∃ t, (coming (last .modmul 10) []).Inv ∧ (coming (last .modmul 10) []).active = some { op := .modmul, width := 64 } ∧
      step (coming (last .modmul 10) []) = .next t ∧ nextEvent (coming (last .modmul 10) []).schedule ≠ .reset ∧
      (nextEvent (coming (last .modmul 10) []).schedule).hasEdge = true ∧ (coming (last .modmul 10) []).cyc = 1 ∧
      (coming (last .modmul 10) []).mod ≠ 0#2048) ∧
    ∃ t, (racing .clock).Inv ∧ (racing .clock).active = some { op := .modexp, width := 64 } ∧
      step (racing .clock) = .next t ∧ nextEvent (racing .clock).schedule ≠ .reset ∧
      (nextEvent (racing .clock).schedule).hasEdge = true ∧ (racing .clock).cyc = 1 ∧ t.status.done = false :=
  ⟨⟨_, busy_inv _ _ (.inr rfl) _, rfl, rfl, by decide, rfl⟩, ⟨_, busy_inv _ _ (.inr rfl) _, rfl, rfl, by decide, rfl, by decide⟩,
    ⟨_, last_inv _ _ (.inr rfl) _, rfl, rfl, by decide, rfl, rfl, by decide +kernel⟩,
    _, last_inv _ _ (.inr rfl) _, rfl, rfl, by decide, rfl, rfl, rfl⟩

theorem witness_CommandInFlightCompletes :
    (coming (busy .modexp 0) [.work, .txn (Transaction.read 0x008#12)]).Inv ∧
      (coming (busy .modexp 0) [.work, .txn (Transaction.read 0x008#12)]).active = some { op := .modexp, width := 64 } ∧
      Event.reset ∉ (coming (busy .modexp 0) [.work, .txn (Transaction.read 0x008#12)]).schedule :=
  ⟨busy_inv _ _ (.inl rfl) _, rfl, by decide⟩

theorem witness_BusyEndsOnlyInDone :
    (∃ t, (coming (busy .modmul 10) []).Inv ∧ (coming (busy .modmul 10) []).status.busy = true ∧
      nextEvent (coming (busy .modmul 10) []).schedule ≠ .reset ∧ step (coming (busy .modmul 10) []) = .next t) ∧
    ∃ t, (coming (last .modmul 10) []).Inv ∧ (coming (last .modmul 10) []).status.busy = true ∧
      nextEvent (coming (last .modmul 10) []).schedule ≠ .reset ∧ step (coming (last .modmul 10) []) = .next t :=
  ⟨⟨_, busy_inv _ _ (.inr rfl) _, rfl, by decide, rfl⟩, _, last_inv _ _ (.inr rfl) _, rfl, by decide, rfl⟩

theorem witness_InvariantKeptByEveryStep :
    ∃ t, (coming (busy .modexpE32 10) [.work]).Inv ∧ step (coming (busy .modexpE32 10) [.work]) = .next t :=
  ⟨_, busy_inv _ _ (.inr rfl) _, rfl⟩

theorem witness_ResetMeetsTheInvariants : Params.observed2048.Wf := by decide

theorem witness_EngineInvariantKeptByEveryStep :
    ∃ t, (coming (busy .modexpE32 10) [.work]).Inv ∧ (coming (busy .modexpE32 10) [.work]).EngineInv ∧
      step (coming (busy .modexpE32 10) [.work]) = .next t :=
  ⟨_, busy_inv _ _ (.inr rfl) _, busy_engineInv _ _ _, rfl⟩

/-- An engine that has consumed every bit of EXP = 3: ACC = 7^3 mod 10 = 3. -/
def spent : State := { busy .modexpE32 10 with acc := 3#2048, phase := .expMultiply, iter := 0 }

theorem witness_AccumulatorIsTheResultWhenIterIsZero :
    spent.Inv ∧ spent.EngineInv ∧ spent.active = some { op := .modexp, width := 32 } ∧
      ({ op := .modexp, width := 32 } : Active).op = .modexp ∧ spent.mod ≠ 0#2048 ∧ spent.iter = 0 := by
  have k := busy_inv .modexpE32 10 (.inr rfl) []
  refine ⟨⟨k.params, fun r => by have := k.operands r; cases r <;> exact this, by decide +kernel, k.sq, k.sqb, k.prod,
    k.rem, by decide, k.busyActive, fun h => ?_, k.busyFlags, fun c hc => ?_⟩, fun c hc _ _ => ?_, rfl, rfl,
    by decide +kernel, rfl⟩
  · cases h
  · obtain ⟨e, f⟩ := k.inFlight c hc
    exact ⟨e, f.width, f.lastop, f.lastem, f.cycPos, f.cycLe, Nat.zero_le _, fun h => (by cases hc; cases h),
      fun _ => .inr rfl⟩
  · cases hc
    exact ⟨by decide +kernel, fun _ h => absurd h (Nat.lt_irrefl 0)⟩

theorem witness_EngineOperationCount :
    small.Wf ∧ 64 ≤ 2 * EMode.width .e32 small ∧ 0 ≤ 2 * EMode.width .e32 small := by decide

theorem witness_InternalWorkIsInvisible : (coming (busy .modexp 10) [.work]).schedule = .work :: [] := rfl

/-- Two runs with different operands, in the cycle in which a command completes. -/
theorem witness_TimingIsIndependentOfOperands :
    ∃ t t', SameControl (last .modexp 10) (last .modexp 0) ∧ (last .modexp 10).mod ≠ (last .modexp 0).mod ∧
      step (last .modexp 10) = .next t ∧ step (last .modexp 0) = .next t' :=
  ⟨_, _, by constructor <;> decide, by decide +kernel, rfl, rfl⟩

theorem witness_CarryAndBorrowAreExact : 2 ^ 256 - 1 < 2 ^ 256 ∧ 0 < 2 ^ 257 := by decide +kernel
theorem witness_MaskedSelectIsSelect : 8 < 2 ^ 256 ∧ 4 < 2 ^ 256 ∧ 7 < 2 ^ 257 := by decide +kernel

theorem witness_ReferenceReductionIsExact :
    (2 ^ 64 - 1 < 2 ^ 64 ∧ 9 < 2 ^ 64 ∧ 2 ^ 63 < 2 ^ 64 ∧ 1 ≤ 2 ^ 63) ∧ 7 < 2 ^ 64 ∧ 1 < 2 ^ 64 ∧ 1 ≤ 1 := by
  decide +kernel

theorem witness_ModMulDependsOnResidues : 1 ≤ 1 ∧ 1 ≤ 7 := by decide
theorem witness_SquareAndMultiplyIsThePower :
    (0 < 32 ∧ 2 ^ 32 - 1 < 2 ^ 32 ∧ 0 < 2 ^ 32 ∧ 1 ≤ 7) ∧ 1 ≤ 7 ∧ 2 % 7 = 2 ^ (3 / 2 ^ (0 + 1)) % 7 := by decide
theorem witness_ExponentiationCornerCases : 0 < 32 ∧ 3 < 2 ^ 32 ∧ 0 < 3 ∧ 1 ≤ 100 := by decide

/-- L2-E20: bit 32 of EXP differs, the low 32 bits agree. -/
theorem witness_ExponentBitsAboveWidthAreIgnored :
    (∀ i, i < 32 → (0x100000003#2048).getLsbD i = (idle 10).exp.getLsbD i) ∧ 0x100000003#2048 ≠ (idle 10).exp := by
  decide +kernel

theorem witness_UnreadOperandsDoNotMatter :
    ({ op := .modexp, width := 64 } : Active).op = .modexp ∧ ({ op := .modmul, width := 64 } : Active).op = .modmul := by
  decide

/-- A MODEXP.E32 in the second half of iteration `t`. -/
def halfway (t : Nat) : State := { busy .modexpE32 10 with phase := .expMultiply, iter := 32 - t }

theorem witness_BitsAreConsumedMostSignificantFirst :
    (0 < 32 ∧ 31 < 32) ∧
    ((halfway 0).active = some { op := .modexp, width := 32 } ∧ 31 < ({ op := .modexp, width := 32 } : Active).width ∧
      (halfway 0).phase = .expMultiply ∧ (halfway 0).iter = 32 - 0) ∧
    (halfway 31).active = some { op := .modexp, width := 32 } ∧ (halfway 31).phase = .expMultiply ∧
      (halfway 31).iter = 32 - 31 := by decide
theorem witness_ExponentBitInByteBuffer : 32 % 8 = 0 ∧ 3 < 2 ^ 32 ∧ 0 < 32 ∧ 31 < 32 := by decide
theorem witness_SplitExponentHighWordFirst : small.Wf ∧ 0 < 32 ∧ 31 < 32 := by decide
theorem witness_BigEndianBytesRoundTrip :
    256 % 8 = 0 ∧ 2 ^ 256 - 1 < 2 ^ 256 ∧ Params.observed256.Wf ∧ 7 < Params.observed256.nwords := by decide +kernel
theorem witness_OperandWordsAreBigEndian : small.Wf ∧ 0 < small.nwords ∧ 1 < small.nwords := by decide

theorem witness_RegisterMap :
    8 ≤ 64 ∧ 7 < 8 ∧ 8 ≤ 63 ∧ 63 < 64 ∧ 0x010 ≤ (0x0FC#12).toNat ∧ (0x0FC#12).toNat < 0x100 ∧ 0x600 ≤ (0xFFC#12).toNat := by
  decide

theorem witness_ReadsReturnTheRegisterAndChangeNothing :
    (0x504#12).toNat % 4 = 0 ∧ 1 < 64 ∧ (0x504#12).toNat = OperandReg.result.base + 4 * 1 ∧
      (coming (idle 10) [.txn { write := false, addr := 0x504#12, size := 2#2, wdata := 5#32 }]).schedule =
        .txn { write := false, addr := 0x504#12, size := 2#2, wdata := 5#32 } :: [] ∧
      (0x5FC#12).toNat % 4 = 0 ∧ (0x5FC#12).toNat = OperandReg.result.base + 4 * 63 ∧
      (0x00C#12).toNat % 4 = 0 ∧ (0x010#12).toNat % 4 = 0 ∧ 0x010 ≤ (0x010#12).toNat ∧ (0x010#12).toNat < 0x100 := by decide

theorem witness_OperandWordWrite :
    (storing (idle 10) 0x404#12 9#32).params.Wf ∧
      (storing (idle 10) 0x404#12 9#32).schedule = .txn (Transaction.store 0x404#12 9#32) :: [] ∧
      (0x404#12).toNat % 4 = 0 ∧ target (storing (idle 10) 0x404#12 9#32).params.nwords 0x404#12 = .operand .exp 1 ∧
      OperandReg.exp ≠ .result ∧ (storing (idle 10) 0x404#12 9#32).status.busy = false ∧
      (storing (busy .modmul 10) 0x404#12 9#32).status.busy = true := by decide

theorem witness_ReservedOffsetsIgnoreWrites :
    (storing (busy .modmul 10) 0x108#12 9#32).params.Wf ∧
      (0x108#12).toNat % 4 = 0 ∧ OperandReg.opa.base + small.width / 8 ≤ (0x108#12).toNat ∧
      (0x108#12).toNat < OperandReg.opa.base + 0x100 ∧
      (storing (busy .modmul 10) 0x108#12 9#32).schedule = .txn (Transaction.store 0x108#12 9#32) :: [] ∧
      (0x0FC#12).toNat % 4 = 0 ∧ 0x010 ≤ (0x0FC#12).toNat ∧ (0x0FC#12).toNat < 0x100 ∧
      (0x600#12).toNat % 4 = 0 ∧ 0x600 ≤ (0x600#12).toNat := by decide

theorem witness_BusErrorChangesNothing :
    (storing (busy .modmul 10) 0x102#12 9#32).schedule = .txn (Transaction.store 0x102#12 9#32) :: [] ∧
      (0x102#12).toNat % 4 ≠ 0 ∧ (Transaction.store 0xFFC#12 9#32).size = 2#2 ∧ (0xFFC#12).toNat % 4 = 0 := by decide

/-- RESULT goes from 0 to 63 mod 10; a write to the last word of its window. -/
theorem witness_ResultChangesOnlyAtCompletion :
    (∃ t, (coming (last .modmul 10) []).Inv ∧ step (coming (last .modmul 10) []) = .next t ∧
      t.result ≠ (coming (last .modmul 10) []).result) ∧
    0x500 ≤ (0x5FC#12).toNat ∧ (0x5FC#12).toNat < 0x600 ∧ (0x5FC#12).toNat % 4 = 0 ∧
      (storing (busy .modmul 10) 0x5FC#12 9#32).schedule = .txn (Transaction.store 0x5FC#12 9#32) :: [] :=
  ⟨⟨_, last_inv _ _ (.inr rfl) _, rfl, by decide +kernel⟩, by decide, by decide, by decide, rfl⟩

/-- A store to an idle core, and one ordered after the completion of its cycle. -/
theorem witness_OperandsChangeOnlyByHostWrites :
    (∃ t, (storing (idle 10) 0x104#12 9#32).Inv ∧ step (storing (idle 10) 0x104#12 9#32) = .next t ∧
      OperandReg.opa ≠ .result ∧ t.reg .opa ≠ (storing (idle 10) 0x104#12 9#32).reg .opa) ∧
    ∃ t, (coming (last .modmul 10) [.cycle (Transaction.store 0x104#12 9#32) .clock]).Inv ∧
      step (coming (last .modmul 10) [.cycle (Transaction.store 0x104#12 9#32) .clock]) = .next t ∧
      t.reg .opa ≠ (coming (last .modmul 10) []).reg .opa :=
  ⟨⟨_, idle_inv _, rfl, by decide, by decide +kernel⟩, _, last_inv _ _ (.inr rfl) _, rfl, by decide +kernel⟩

theorem witness_CfgDescribesTheInstance :
    State.reset.params.Wf ∧ State.reset.params.width = 256 ∧ (State.resetOf Params.observed2048).params.Wf ∧
      (State.resetOf Params.observed2048).params.width = 2048 ∧
      (storing State.reset 0x000#12 9#32).schedule = .txn (Transaction.store 0x000#12 9#32) :: [] := by decide

theorem witness_StatusWriteClearsNamedFlags :
    (storing (busy .modmul 10) 0x008#12 0x1E#32).schedule = .txn (Transaction.store 0x008#12 0x1E#32) :: [] := rfl

theorem witness_CtrlHoldsInterruptEnable :
    (storing (busy .modmul 10) 0x00C#12 0xFFFFFFFF#32).schedule =
        .txn (Transaction.store 0x00C#12 0xFFFFFFFF#32) :: [] ∧
      ∃ t, (coming (busy .modmul 10) [.reset]).schedule = .reset :: [] ∧
        step (coming (busy .modmul 10) [.reset]) = .next t :=
  ⟨rfl, _, rfl, rfl⟩

theorem witness_IrqIsALevelOfIeAndFlags :
    (∃ t, (storing (idle 10) 0x00C#12 1#32).schedule = .txn (Transaction.store 0x00C#12 1#32) :: [] ∧
      step (storing (idle 10) 0x00C#12 1#32) = .next t) ∧
    ∃ t, (storing (idle 10) 0x008#12 0x1A#32).schedule = .txn (Transaction.store 0x008#12 0x1A#32) :: [] ∧
      (0x1A#32).getLsbD 1 = true ∧ (0x1A#32).getLsbD 3 = true ∧ (0x1A#32).getLsbD 4 = true ∧
      step (storing (idle 10) 0x008#12 0x1A#32) = .next t :=
  ⟨⟨_, rfl, rfl⟩, _, rfl, by decide, by decide, by decide, rfl⟩

/-- The idle core with these sticky flags. -/
def flagged (ill wbusy : Bool) (es : List Event) : State :=
  coming { idle 10 with status := { Status.reset with ill := ill, wbusy := wbusy } } es

theorem witness_IllegalWordSetsStickyIll :
    ((storing (idle 10) 0x004#12 0x3#32).status.busy = false ∧ legal 0x3#32 = false ∧
      (storing (idle 10) 0x004#12 0x3#32).schedule = .txn (Transaction.store 0x004#12 0x3#32) :: []) ∧
    ∃ t, step (flagged true false [.txn (Transaction.store 0x008#12 8#32)]) = .next t ∧
      (flagged true false [.txn (Transaction.store 0x008#12 8#32)]).status.ill = true ∧ t.status.ill = false :=
  ⟨⟨rfl, by decide, rfl⟩, _, rfl, rfl, by decide⟩

theorem witness_WbusyRecordsDroppedWrites :
    (∃ t, step (storing (busy .modexp 10) 0x104#12 9#32) = .next t ∧
      (storing (busy .modexp 10) 0x104#12 9#32).status.wbusy = false ∧ t.status.wbusy = true) ∧
    ∃ t, step (flagged false true [.txn (Transaction.store 0x008#12 16#32)]) = .next t ∧
      (flagged false true [.txn (Transaction.store 0x008#12 16#32)]).status.wbusy = true ∧ t.status.wbusy = false :=
  ⟨⟨_, rfl, rfl, by decide⟩, _, rfl, rfl, by decide⟩

/-- A completing core that the host clears all four flags of in the same cycle. -/
def clearing (m : Nat) (first : First) : State :=
  coming (last .modexp m) [.cycle (Transaction.store 0x008#12 0x1E#32) first]

theorem witness_CompletionSetWinsOverClear :
    ((clearing 0 .clock).Inv ∧ (clearing 0 .clock).active = some { op := .modexp, width := 64 } ∧
      (clearing 0 .clock).cyc = 1 ∧ (clearing 0 .clock).mod = 0#2048 ∧
      (clearing 0 .clock).schedule = .cycle (Transaction.store 0x008#12 0x1E#32) .clock :: []) ∧
    (clearing 10 .transaction).Inv ∧ (clearing 10 .transaction).active = some { op := .modexp, width := 64 } ∧
      (clearing 10 .transaction).cyc = 1 ∧ (clearing 10 .transaction).mod ≠ 0#2048 ∧
      (clearing 10 .transaction).schedule = .cycle (Transaction.store 0x008#12 0x1E#32) .transaction :: [] :=
  ⟨⟨last_inv _ _ (.inl rfl) _, rfl, rfl, by decide +kernel, rfl⟩, last_inv _ _ (.inr rfl) _, rfl, rfl, by decide +kernel,
    rfl⟩

/-- Each clause: an idle core, the transaction first, the edge first; and a write that is none to STATUS, in the last cycle. -/
theorem witness_SameCycleIsBothInSomeOrder :
    ((coming (idle 10) [.cycle (Transaction.store 0x104#12 9#32) .clock]).status.busy = false ∧
      (coming (idle 10) [.cycle (Transaction.store 0x104#12 9#32) .clock]).schedule =
        .cycle (Transaction.store 0x104#12 9#32) .clock :: []) ∧
    ((racing .transaction).status.busy = true ∧
      (racing .transaction).schedule = .cycle (Transaction.store 0x004#12 (encode .modmul)) .transaction :: []) ∧
    (racing .clock).status.busy = true ∧
      (racing .clock).schedule = .cycle (Transaction.store 0x004#12 (encode .modmul)) .clock :: [] ∧
      (Transaction.store 0x004#12 (encode .modmul)).addr ≠ 0x008#12 := by decide

/-- A read of RESULT's last word in the cycle of a completion, and on an idle core. -/
theorem witness_ReadRacesClockEdge :
    (coming (last .modmul 10) [.cycle (Transaction.read 0x504#12) .clock]).Inv ∧ (0x504#12).toNat % 4 = 0 ∧
      (coming (last .modmul 10) [.cycle (Transaction.read 0x504#12) .clock]).schedule =
        .cycle { write := false, addr := 0x504#12, size := 2#2, wdata := 0#32 } .clock :: [] ∧
      (coming (idle 10) [.cycle (Transaction.read 0x504#12) .transaction]).Inv :=
  ⟨last_inv _ _ (.inr rfl) _, by decide, rfl, idle_inv _⟩

/-- P3's racing write, in both orders. -/
theorem witness_OperandWriteRacesCompletion :
    (∀ first, (coming (last .modexpE32 10) [.cycle (Transaction.store 0x104#12 9#32) first]).Inv ∧
      (coming (last .modexpE32 10) [.cycle (Transaction.store 0x104#12 9#32) first]).active =
        some { op := .modexp, width := 32 } ∧
      (coming (last .modexpE32 10) [.cycle (Transaction.store 0x104#12 9#32) first]).cyc = 1 ∧
      (coming (last .modexpE32 10) [.cycle (Transaction.store 0x104#12 9#32) first]).schedule =
        .cycle (Transaction.store 0x104#12 9#32) first :: []) ∧
      (0x104#12).toNat % 4 = 0 ∧ target small.nwords 0x104#12 = .operand .opa 1 ∧ OperandReg.opa ≠ .result ∧
      (last .modexpE32 10).mod ≠ 0#2048 :=
  ⟨fun _ => ⟨last_inv _ _ (.inr rfl) _, rfl, rfl, rfl⟩, by decide, by decide, by decide, by decide +kernel⟩

theorem witness_CommandWriteRacesCompletion :
    ((racing .transaction).Inv ∧ (racing .transaction).active = some { op := .modexp, width := 64 } ∧
      (racing .transaction).cyc = 1 ∧ (racing .transaction).mod ≠ 0#2048 ∧
      (racing .transaction).schedule = .cycle (Transaction.store 0x004#12 (encode .modmul)) .transaction :: []) ∧
    (racing .clock).Inv ∧ (racing .clock).active = some { op := .modexp, width := 64 } ∧
      (racing .clock).cyc = 1 ∧ (racing .clock).mod ≠ 0#2048 ∧
      (racing .clock).schedule = .cycle (Transaction.store 0x004#12 (encode .modmul)) .clock :: [] :=
  ⟨⟨last_inv _ _ (.inr rfl) _, rfl, rfl, by decide +kernel, rfl⟩, last_inv _ _ (.inr rfl) _, rfl, rfl, by decide +kernel,
    rfl⟩

theorem witness_ResetGivesTheControlState : (coming (busy .modexp 10) [.reset]).schedule = .reset :: [] := rfl
theorem witness_AfterResetTheCoreWaits :
    Params.observed256.Wf ∧ ∃ t, (coming (busy .modexp 10) [.reset]).params.Wf ∧
      (coming (busy .modexp 10) [.reset]).schedule = .reset :: [] ∧ step (coming (busy .modexp 10) [.reset]) = .next t :=
  ⟨by decide, _, by decide, rfl, rfl⟩

theorem witness_LoadFillsTheRegister :
    (coming (idle 10) (scheduleOf small [.ld .mod 11#2048])).Inv ∧
      (coming (idle 10) (scheduleOf small [.ld .mod 11#2048])).status.busy = false ∧ OperandReg.mod ≠ .result ∧
      (11#2048).toNat < 2 ^ small.width ∧
      (coming (idle 10) (scheduleOf small [.ld .mod 11#2048])).schedule = scheduleOf small [.ld .mod 11#2048] :=
  ⟨idle_inv _, rfl, by decide, by decide +kernel, rfl⟩

end Sys2Proof.Tests
end

/-!
PROOFS of the statements about the state (10_state.md): what a transaction, an internal operation and a clock edge do
to the registers and to the unit in flight, and from that the core's invariant.
-/

namespace Sys2Proof.Machine

/-! ### The two halves of the invariant -/

/-- The half of `State.Inv` about data: admissible parameters, and every register within its width (10_state.md R20, R33,
R34). -/
structure State.RegistersFit (s : State) : Prop where
  params : s.params.Wf
  operands : ∀ r, (s.reg r).toNat < 2 ^ s.params.width
  acc : s.acc.toNat < 2 ^ s.params.width
  sq : s.sq.toNat < 2 ^ s.params.width
  sqb : s.sqb.toNat < 2 ^ s.params.width
  prod : s.prod.toNat < 2 ^ (2 * s.params.width)
  rem : s.rem.toNat < 2 ^ (s.params.width + 1)

/-- The half of `State.Inv` about control: BUSY, PHASE, ACTIVE and the counters agree (10_state.md R35). -/
structure State.ControlAgrees (s : State) : Prop where
  busyPhase : s.status.busy = true ↔ s.phase ≠ .idle
  busyActive : s.status.busy = true ↔ s.active ≠ none
  idle : s.status.busy = false → s.cyc = 0 ∧ s.iter = 0
  busyFlags : s.status.busy = true → s.status.done = false ∧ s.status.mz = false
  inFlight : ∀ c, s.active = some c → ∃ m, s.InFlight c m

theorem inv_iff (s : State) : s.Inv ↔ s.RegistersFit ∧ s.ControlAgrees :=
  ⟨fun ⟨p, o, a, q, b, d, e, bp, ba, i, f, c⟩ => ⟨⟨p, o, a, q, b, d, e⟩, ⟨bp, ba, i, f, c⟩⟩,
    fun ⟨⟨p, o, a, q, b, d, e⟩, ⟨bp, ba, i, f, c⟩⟩ => ⟨p, o, a, q, b, d, e, bp, ba, i, f, c⟩⟩

theorem State.ControlAgrees.of_idle {s : State} (hb : s.status.busy = false) (hp : s.phase = .idle)
    (ha : s.active = none) (hc : s.cyc = 0) (hi : s.iter = 0) : s.ControlAgrees := by
  constructor <;> simp [hb, hp, ha, hc, hi]

theorem State.ControlAgrees.phase_of_idle {s : State} (h : s.ControlAgrees) (hb : s.status.busy = false) :
    s.phase = .idle := by
  simpa [hb] using h.busyPhase

theorem State.ControlAgrees.active_of_idle {s : State} (h : s.ControlAgrees) (hb : s.status.busy = false) :
    s.active = none := by
  simpa [hb] using h.busyActive

theorem State.ControlAgrees.busy_of_active {s : State} {c : Active} (h : s.ControlAgrees) (ha : s.active = some c) :
    s.status.busy = true :=
  h.busyActive.mpr (by simp [ha])

/-- The schedule is no part of the invariant. -/
theorem State.Inv.popEvent {s : State} (h : s.Inv) : s.popEvent.Inv := by
  obtain ⟨p, o, a, q, b, d, e, bp, ba, i, f, c⟩ := h
  refine ⟨p, o, a, q, b, d, e, bp, ba, i, f, fun act hact => ?_⟩
  obtain ⟨m, w, lo, le, cp, cl, il, mm, me⟩ := c act hact
  exact ⟨m, w, lo, le, cp, cl, il, mm, me⟩

/-! ### What a transaction does to the registers and to the unit in flight -/

/-- A transaction leaves a register alone, or it stores a word of it in an idle core (20_memory.md R70). -/
theorem Transacted.reg_cases {tr : Transaction} {now : SetNow} {s t : State} (h : Transacted tr now s t)
    (r : OperandReg) :
    t.reg r = s.reg r ∨ ∃ j, tr.accessOk = true ∧ tr.write = true ∧ target s.params.nwords tr.addr = .operand r j ∧
      s.status.busy = false ∧ t.reg r = setWord s.params.width (s.reg r) j tr.wdata := by
  cases h with
  | stored q j hok hw ht _ hb =>
    by_cases hq : r = q
    · subst hq
      exact .inr ⟨j, hok, hw, ht, hb, State.reg_setReg_same _ _ _⟩
    · left
      rw [State.reg_setReg_other _ _ _ _ hq, State.respond_reg]
  | _ => left; cases r <;> simp [State.reg]

/-- A transaction leaves ACC alone, or sets it to 1 as an engine starts (44_square_and_multiply_engine.md R191). -/
theorem Transacted.acc_cases {tr : Transaction} {now : SetNow} {s t : State} (h : Transacted tr now s t) :
    t.acc = s.acc ∨ t.acc = 1#2048 := by
  cases h with
  | accepted i => cases i <;> simp [opOf]
  | _ => left; simp

/-- A transaction that finds the core idle is an accepted command, or it leaves the core idle. -/
theorem Transacted.idle {tr : Transaction} {now : SetNow} {s t : State} (h : Transacted tr now s t)
    (hb : s.status.busy = false) :
    (∃ o m, t = (s.respond Response.written).accept o m ∧ (o = .modmul → m = .full)) ∨
      (t.status.busy = false ∧ t.phase = s.phase ∧ t.active = s.active ∧ t.cyc = s.cyc ∧ t.iter = s.iter) := by
  cases h with
  | accepted i => exact .inl ⟨_, _, rfl, by cases i <;> simp [opOf, emodeOf]⟩
  | _ => right; simp_all

/-- While a command is in flight DONE and MZ stay 0, unless the clock edge of the same cycle sets them. -/
theorem Transacted.busy_flags {tr : Transaction} {now : SetNow} {s t : State} (h : Transacted tr now s t)
    (hb : s.status.busy = true) (hs : s.status.done = false ∧ s.status.mz = false)
    (hn : now.done = false ∧ now.mz = false) : t.status.done = false ∧ t.status.mz = false := by
  cases h <;> simp_all

theorem one_lt_two_pow_width {p : Params} (h : p.Wf) : 1 < 2 ^ p.width := by
  obtain ⟨-, h64, -⟩ := h
  exact Nat.one_lt_two_pow (by omega)

theorem Transacted.registersFit {tr : Transaction} {now : SetNow} {s t : State} (h : Transacted tr now s t)
    (hs : s.RegistersFit) : t.RegistersFit := by
  obtain ⟨hp, -, -, hsq, hsqb, hprod, hrem, -⟩ := h.frame
  refine ⟨?_, fun r => ?_, ?_, ?_, ?_, ?_, ?_⟩ <;> rw [hp]
  · exact hs.params
  · rcases h.reg_cases r with e | ⟨j, -, -, ht, -, e⟩ <;> rw [e]
    · exact hs.operands r
    · obtain ⟨-, -, hj⟩ := target_eq_operand ht
      exact setWord_lt _ _ _ _ hj (hs.operands r)
  · rcases h.acc_cases with e | e <;> rw [e]
    · exact hs.acc
    · rw [BitVec.toNat_one (by decide)]
      exact one_lt_two_pow_width hs.params
  · exact hsq ▸ hs.sq
  · exact hsqb ▸ hs.sqb
  · exact hprod ▸ hs.prod
  · exact hrem ▸ hs.rem

theorem latencyOf_pos {p : Params} (h : p.Wf) (o : Op) (m : EMode) : 0 < latencyOf p o m := by
  obtain ⟨-, -, -, hmm, hfull, h64, h32⟩ := h
  cases o <;> cases m <;> assumption

theorem emodeWidth_pos {p : Params} (h : p.Wf) (m : EMode) : 0 < m.width p := by
  cases m with
  | full => exact Nat.lt_of_lt_of_le (by decide) h.2.1
  | e64 => exact Nat.succ_pos _
  | e32 => exact Nat.succ_pos _

/-- A command accepted by an idle core is in flight (40_command_lifecycle.md R111). -/
theorem accept_inFlight {s : State} {o : Op} {m : EMode} (hp : s.params.Wf) (hi : s.iter = 0)
    (hm : o = .modmul → m = .full) : (s.accept o m).InFlight { op := o, width := m.width s.params } m where
  width := by simp
  lastop := by simp
  lastem := by simp
  cycPos := by simpa using latencyOf_pos hp o m
  cycLe := by simp
  iterLe := by cases o <;> simp [hi]
  modmul := by rintro rfl; simp [hm, hi]
  modexp := by rintro rfl; simp [emodeWidth_pos hp]

theorem accept_controlAgrees {s : State} {o : Op} {m : EMode} (hp : s.params.Wf) (hi : s.iter = 0)
    (hm : o = .modmul → m = .full) : (s.accept o m).ControlAgrees where
  busyPhase := by cases o <;> simp
  busyActive := by simp
  idle := by simp
  busyFlags := by simp
  inFlight c hc := by
    rw [State.accept_active, Option.some.injEq] at hc
    exact ⟨m, hc ▸ accept_inFlight hp hi hm⟩

theorem Transacted.controlAgrees {tr : Transaction} {now : SetNow} {s t : State} (h : Transacted tr now s t)
    (hp : s.params.Wf) (hs : s.ControlAgrees)
    (hn : s.status.busy = true → now.done = false ∧ now.mz = false) : t.ControlAgrees := by
  cases hb : s.status.busy with
  | false =>
    obtain ⟨hc, hi⟩ := hs.idle hb
    rcases h.idle hb with ⟨o, m, rfl, hm⟩ | ⟨hb', hph, hact, hcyc, hit⟩
    · exact accept_controlAgrees hp hi hm
    · exact .of_idle hb' (hph.trans (hs.phase_of_idle hb)) (hact.trans (hs.active_of_idle hb)) (hcyc.trans hc)
        (hit.trans hi)
  | true =>
    obtain ⟨-, hact, hph, hcyc, hit, -, hb', hop, hem⟩ := h.busy hb
    have hpar : t.params = s.params := h.frame.1
    refine ⟨?_, ?_, ?_, fun _ => h.busy_flags hb (hs.busyFlags hb) (hn hb), fun c hc => ?_⟩
    · simpa [hb, hb', hph] using hs.busyPhase
    · simpa [hb, hb', hact] using hs.busyActive
    · simp [hb']
    · obtain ⟨m, k⟩ := hs.inFlight c (hact ▸ hc)
      refine ⟨m, ?_⟩
      constructor <;> simp only [hpar, hph, hcyc, hit, hop, hem]
      exacts [k.width, k.lastop, k.lastem, k.cycPos, k.cycLe, k.iterLe, k.modmul, k.modexp]

/-- A transaction keeps the invariant; the flags set by a clock edge of the same cycle are those of a core that is idle
after it. -/
theorem Transacted.inv {tr : Transaction} {now : SetNow} {s t : State} (h : Transacted tr now s t) (hs : s.Inv)
    (hn : s.status.busy = true → now.done = false ∧ now.mz = false) : t.Inv := by
  obtain ⟨hfit, hctl⟩ := (inv_iff s).mp hs
  exact (inv_iff t).mpr ⟨h.registersFit hfit, h.controlAgrees hfit.params hctl hn⟩

/-! ### What the unit in flight does -/

theorem unitResult_lt (s : State) : s.unitResult.toNat < 2 ^ s.params.width := by
  rw [State.unitResult, BitVec.toNat_ofNat]
  exact (Nat.mod_le _ _).trans_lt (Nat.mod_lt _ (by positivity))

/-- A use of the multiplier on two `W`-bit values keeps PROD within `2W` bits (10_state.md R33). -/
theorem multiply_prod_lt {s : State} {a b : Operand} (ha : a.toNat < 2 ^ s.params.width)
    (hb : b.toNat < 2 ^ s.params.width) : (s.multiply a b).prod.toNat < 2 ^ (2 * s.params.width) := by
  rw [State.multiply_prod, BitVec.toNat_ofNat, multiplyFull, two_mul, pow_add]
  exact (Nat.mod_le _ _).trans_lt (Nat.mul_lt_mul'' ha hb)

theorem State.RegistersFit.multiply {s : State} (h : s.RegistersFit) {a b : Operand}
    (ha : a.toNat < 2 ^ s.params.width) (hb : b.toNat < 2 ^ s.params.width) : (s.multiply a b).RegistersFit :=
  ⟨h.params, h.operands, h.acc, h.sq, h.sqb, multiply_prod_lt ha hb, multiply_rem_lt (h.operands .mod) a b⟩

theorem State.RegistersFit.squareStep {s : State} (h : s.RegistersFit) : s.squareStep.RegistersFit := by
  obtain ⟨hp, hop, hacc, -, hsqb, hprod, hrem⟩ := h.multiply h.acc h.acc
  exact ⟨hp, hop, hacc, unitResult_lt _, hsqb, hprod, hrem⟩

theorem State.RegistersFit.multiplyStep {s : State} (h : s.RegistersFit) (i : Nat) :
    (s.multiplyStep i).RegistersFit := by
  obtain ⟨hp, hop, -, hsq, -, hprod, hrem⟩ := h.multiply h.sq (h.operands .opa)
  refine ⟨hp, hop, ?_, hsq, unitResult_lt _, hprod, hrem⟩
  rw [State.multiplyStep_acc]
  split
  · exact unitResult_lt _
  · exact hsq

theorem State.RegistersFit.work {s : State} (h : s.RegistersFit) : s.work.RegistersFit := by
  rcases work_cases s with e | ⟨-, -, e⟩ | ⟨i, -, -, e⟩ <;> rw [e]
  · exact h
  · exact h.squareStep
  · exact h.multiplyStep i

theorem State.RegistersFit.workFor (n : Nat) : ∀ {s : State}, s.RegistersFit → (s.workFor n).RegistersFit := by
  induction n with
  | zero => exact id
  | succ n ih => exact fun h => ih h.work

theorem State.RegistersFit.finish {s : State} (h : s.RegistersFit) : s.finish.RegistersFit := by
  unfold State.finish
  split
  · exact h
  · exact h.multiply (h.operands .opa) (h.operands .opb)
  · exact .workFor _ h
  · exact .workFor _ h

/-- An engine in flight stays in flight when it moves to a later place of its loop (44_square_and_multiply_engine.md
R192). -/
theorem State.InFlight.advance {s t : State} {c : Active} {m : EMode} (h : s.InFlight c m) (k : SameOutside s t)
    (hs : s.phase ≠ .modmul) (hi : t.iter ≤ s.iter)
    (ht : (t.phase = .expSquare ∧ 0 < t.iter) ∨ t.phase = .expMultiply) : t.InFlight c m where
  width := k.params ▸ h.width
  lastop := k.status ▸ h.lastop
  lastem := k.status ▸ h.lastem
  cycPos := k.cyc ▸ h.cycPos
  cycLe := k.params ▸ k.cyc ▸ h.cycLe
  iterLe := hi.trans h.iterLe
  modmul ho := absurd (h.modmul ho).2.1 hs
  modexp _ := ht

theorem State.ControlAgrees.advance {s t : State} (h : s.ControlAgrees) (k : SameOutside s t)
    (hs : s.phase = .expSquare ∨ s.phase = .expMultiply) (hi : t.iter ≤ s.iter)
    (ht : (t.phase = .expSquare ∧ 0 < t.iter) ∨ t.phase = .expMultiply) : t.ControlAgrees := by
  have hb : s.status.busy = true := h.busyPhase.mpr (by rcases hs with e | e <;> simp [e])
  refine ⟨?_, ?_, ?_, ?_, fun c hc => ?_⟩
  · rw [k.status]
    rcases ht with ⟨e, -⟩ | e <;> simp [hb, e]
  · rw [k.status, k.active]; exact h.busyActive
  · simp [k.status, hb]
  · rw [k.status]; exact h.busyFlags
  · obtain ⟨m, hm⟩ := h.inFlight c (k.active ▸ hc)
    exact ⟨m, hm.advance k (by rcases hs with e | e <;> simp [e]) hi ht⟩

theorem State.ControlAgrees.work {s : State} (h : s.ControlAgrees) : s.work.ControlAgrees := by
  have k := work_outside s
  rcases work_cases s with e | ⟨hp, hi, e⟩ | ⟨i, hp, hi, e⟩ <;> rw [e] at k ⊢
  · exact h
  · exact h.advance k (.inl hp) le_rfl (.inr rfl)
  · refine h.advance k (.inr hp) (by simp [hi]) ?_
    rcases Nat.eq_zero_or_pos i with rfl | hpos
    · exact .inr rfl
    · exact .inl ⟨by simp [Nat.ne_of_gt hpos], hpos⟩

theorem State.Inv.work {s : State} (h : s.Inv) : s.work.Inv := by
  obtain ⟨hfit, hctl⟩ := (inv_iff s).mp h
  exact (inv_iff _).mpr ⟨hfit.work, hctl.work⟩

/-! ### What a completion and a clock edge do -/

theorem modMul_lt {b m w x : Nat} (a : Nat) (hm : m < 2 ^ w) (hx : x < 2 ^ w) : modMul a b m x < 2 ^ w := by
  rw [modMul]
  split
  · exact hx
  · exact (Nat.mod_lt _ (Nat.pos_of_ne_zero ‹_›)).trans hm

theorem modExpLoop_lt {base e m w x : Nat} (hm : m < 2 ^ w) (hx : x < 2 ^ w) (n : Nat) :
    ∀ {acc : Nat}, acc < 2 ^ w → modExpLoop base e m x n acc < 2 ^ w := by
  induction n with
  | zero => exact id
  | succ n ih =>
    intro acc _
    refine ih ?_
    rw [select]
    split <;> exact modMul_lt _ hm hx

theorem anyW_lt (s : State) : s.anyW < 2 ^ s.params.width := Nat.mod_lt _ (by positivity)

/-- What a command leaves in RESULT fits in `W` bits (40_command_lifecycle.md R119). -/
theorem State.RegistersFit.commandResult_lt {s : State} (h : s.RegistersFit) (c : Active) {x : Nat}
    (hx : x < 2 ^ s.params.width) : s.commandResult c x < 2 ^ s.params.width := by
  have hm := h.operands .mod
  rw [State.commandResult]
  split
  · exact modMul_lt _ hm hx
  · exact modExpLoop_lt hm hx _ (one_lt_two_pow_width h.params)

theorem State.RegistersFit.retire {s : State} (h : s.RegistersFit) (c : Active) : (s.retire c).RegistersFit := by
  refine ⟨h.params, fun r => ?_, h.acc, h.sq, h.sqb, h.prod, h.rem⟩
  cases r with
  | result =>
    change (BitVec.ofNat 2048 _).toNat < _
    rw [BitVec.toNat_ofNat]
    exact (Nat.mod_le _ _).trans_lt (h.commandResult_lt c (anyW_lt s))
  | opa => exact h.operands .opa
  | opb => exact h.operands .opb
  | mod => exact h.operands .mod
  | exp => exact h.operands .exp

theorem State.Inv.complete {s : State} (h : s.Inv) (c : Active) : (s.complete c).Inv := by
  obtain ⟨hfit, -⟩ := (inv_iff s).mp h
  exact (inv_iff _).mpr ⟨hfit.finish.retire c, .of_idle (by simp) rfl rfl rfl rfl⟩

/-- A clock edge that does not complete the command in flight keeps the invariant (40_command_lifecycle.md R112). -/
theorem State.Inv.countDown {s : State} {c : Active} (h : s.Inv) (ha : s.active = some c) (hc : 1 < s.cyc) :
    State.Inv { s with cyc := s.cyc - 1 } := by
  obtain ⟨hfit, hctl⟩ := (inv_iff s).mp h
  obtain ⟨p, o, a, q, b, d, e⟩ := hfit
  refine (inv_iff _).mpr ⟨⟨p, o, a, q, b, d, e⟩, hctl.busyPhase, hctl.busyActive, fun hb => ?_, hctl.busyFlags,
    fun c' hc' => ?_⟩
  · exact absurd (hctl.busy_of_active ha) (by simpa using hb)
  · obtain ⟨m, w, lo, le, -, cl, il, mm, me⟩ := hctl.inFlight c' hc'
    exact ⟨m, w, lo, le, by change 0 < s.cyc - 1; omega, (Nat.sub_le _ _).trans cl, il, mm, me⟩

theorem State.Inv.clock {s : State} (h : s.Inv) : s.clock.Inv := by
  rcases clock_cases s with ⟨-, e⟩ | ⟨c, ha, ⟨hc, e⟩ | ⟨-, e⟩⟩ <;> rw [e]
  · exact h
  · exact h.countDown ha hc
  · exact h.complete c

/-- A clock edge after which the core is still busy sets no flag (40_command_lifecycle.md R113). -/
theorem setByClock_of_busy {s : State} (h : s.clock.status.busy = true) :
    s.setByClock.done = false ∧ s.setByClock.mz = false := by
  simp [State.setByClock, h]

/-! ### Reset -/

theorem anyBits_ofNat_lt (n w k : Nat) : (BitVec.ofNat n (Config.anyBits w k)).toNat < 2 ^ w := by
  rw [BitVec.toNat_ofNat]
  exact (Nat.mod_le _ _).trans_lt (Nat.mod_lt _ (by positivity))

theorem State.Inv.applyReset {s : State} (h : s.Inv) : s.applyReset.Inv := by
  refine (inv_iff _).mpr ⟨⟨h.params, fun r => ?_, ?_, ?_, ?_, ?_, ?_⟩, .of_idle rfl rfl rfl rfl rfl⟩
  · cases r <;> exact anyBits_ofNat_lt _ _ _
  all_goals exact anyBits_ofNat_lt _ _ _

/-! ### Every step -/

/-- Whatever happens to the core keeps the invariant. -/
theorem Happened.inv {s t : State} {e : Event} (h : Happened s e t) (hs : s.Inv) : t.Inv := by
  have hnone : SetNow.nothing.done = false ∧ SetNow.nothing.mz = false := ⟨rfl, rfl⟩
  cases h with
  | txn k => exact k.inv hs fun _ => hnone
  | tick => exact hs.clock
  | cycleIdle _ k => exact k.inv hs fun _ => hnone
  | cycleBefore _ k => exact (k.inv hs fun _ => hnone).clock
  | cycleAfter _ k => exact k.inv hs.clock setByClock_of_busy
  | work => exact hs.work
  | reset => exact hs.applyReset

/-- Settles O16: each event keeps the invariant, and a step is one event. -/
theorem invariantKeptByEveryStep : Obligations.InvariantKeptByEveryStep := by
  intro s t hs h
  exact (step_cases h).inv hs.popEvent

/-! ### Which steps change an operand register -/

theorem clock_reg {r : OperandReg} (s : State) (hr : r ≠ .result) : s.clock.reg r = s.reg r := by
  cases r with
  | result => exact absurd rfl hr
  | _ => simp [State.reg]

theorem SameOutside.reg {s t : State} (h : SameOutside s t) (r : OperandReg) : t.reg r = s.reg r := by
  cases r with
  | opa => exact h.opa
  | opb => exact h.opb
  | mod => exact h.mod
  | exp => exact h.exp
  | result => exact h.result

/-- A clock edge that ends BUSY is the last of the command's latency (40_command_lifecycle.md R112). -/
theorem State.Inv.cyc_of_completion {s : State} (h : s.Inv) (hb : s.status.busy = true)
    (hb' : s.clock.status.busy = false) : s.cyc = 1 := by
  rcases clock_cases s with ⟨-, e⟩ | ⟨c, ha, ⟨-, e⟩ | ⟨hc, -⟩⟩
  · simp [e, hb] at hb'
  · simp [e, hb] at hb'
  · obtain ⟨m, k⟩ := h.inFlight c ha
    exact Nat.le_antisymm hc k.cycPos

/-- What changes an operand register: a reset, or a host's store to an idle core, the core being idle at once or by the
completion of the same cycle (20_memory.md R70). -/
theorem Happened.operand_changed {s t : State} {e : Event} {r : OperandReg} (h : Happened s e t) (hs : s.Inv)
    (hr : r ≠ .result) (hne : t.reg r ≠ s.reg r) :
    e = .reset ∨
    ∃ tr j, tr.write = true ∧ tr.accessOk = true ∧ target s.params.nwords tr.addr = .operand r j ∧
      ((e = .txn tr ∧ s.status.busy = false) ∨
       ∃ first, e = .cycle tr first ∧ (s.status.busy = false ∨ (s.cyc = 1 ∧ first = .clock))) := by
  cases h with
  | txn k =>
    obtain ⟨j, hok, hw, ht, hb, -⟩ := (k.reg_cases r).resolve_left hne
    exact .inr ⟨_, j, hw, hok, ht, .inl ⟨rfl, hb⟩⟩
  | tick => exact absurd (clock_reg s hr) hne
  | cycleIdle hb k =>
    obtain ⟨j, hok, hw, ht, -, -⟩ := (k.reg_cases r).resolve_left hne
    exact .inr ⟨_, j, hw, hok, ht, .inr ⟨_, rfl, .inl hb⟩⟩
  | cycleBefore hb k =>
    rw [clock_reg _ hr] at hne
    obtain ⟨j, -, -, -, hb', -⟩ := (k.reg_cases r).resolve_left hne
    simp [hb] at hb'
  | cycleAfter hb k =>
    rw [← clock_reg s hr] at hne
    obtain ⟨j, hok, hw, ht, hb', -⟩ := (k.reg_cases r).resolve_left hne
    rw [clock_params] at ht
    exact .inr ⟨_, j, hw, hok, ht, .inr ⟨_, rfl, .inr ⟨hs.cyc_of_completion hb hb', rfl⟩⟩⟩
  | work => exact absurd ((work_outside s).reg r) hne
  | reset => exact .inl rfl

/-- Settles O42: of the events of a step only a store or a reset reaches an operand register. -/
theorem operandsChangeOnlyByHostWrites : Obligations.OperandsChangeOnlyByHostWrites := by
  intro s t r hs h hr hne
  exact (step_cases h).operand_changed hs.popEvent hr hne

/-! ### The state after reset -/

theorem resetOf_inv {p : Params} (hp : p.Wf) : (State.resetOf p).Inv := by
  have hpos (n w : Nat) : (0#n).toNat < 2 ^ w := by simp
  refine (inv_iff _).mpr ⟨⟨hp, fun r => ?_, hpos _ _, hpos _ _, hpos _ _, hpos _ _, hpos _ _⟩, .of_idle rfl rfl rfl rfl rfl⟩
  cases r <;> exact hpos _ _

/-- The engine's invariant says nothing of a core with no command in flight. -/
theorem engineInv_of_inactive {s : State} (h : s.active = none) : s.EngineInv := by
  intro c hc
  simp [h] at hc

theorem observed256_wf : Params.observed256.Wf := by decide

/-- Settles O17: after reset every register is 0 and nothing is in flight. -/
theorem resetMeetsTheInvariants : Obligations.ResetMeetsTheInvariants :=
  ⟨fun _ hp => ⟨resetOf_inv hp, engineInv_of_inactive rfl⟩, resetOf_inv observed256_wf⟩

/-! ### The operands a command reads -/

/-- Settles O30: each operation's result is a function of the registers it reads. -/
theorem unreadOperandsDoNotMatter : Obligations.UnreadOperandsDoNotMatter := by
  rintro s ⟨op, width⟩ v x
  cases op with
  | modmul => exact ⟨nofun, fun _ => rfl⟩
  | modexp => exact ⟨fun _ => rfl, nofun⟩

/-! ### A host write to a control register -/

theorem step_of_store {s : State} {a : Offset} {v : Word} {rest : List Event} (ha : a.toNat % 4 = 0)
    (h : s.schedule = .txn (Transaction.store a v) :: rest) :
    step s = hostWrite a v SetNow.nothing (State.respond { s with schedule := rest } Response.written) :=
  (step_of_txn h).trans (transact_store v _ _ ha)

/-- A write to CFG is ignored (10_state.md R28). -/
theorem step_of_cfg_write {s : State} {v : Word} {rest : List Event}
    (h : s.schedule = .txn (Transaction.store 0x000#12 v) :: rest) :
    step s = .next { s with schedule := rest, rsp := some Response.written } :=
  step_of_store rfl h

/-- A write to STATUS clears the flags it names (10_state.md R30). -/
theorem step_of_status_write {s : State} {v : Word} {rest : List Event}
    (h : s.schedule = .txn (Transaction.store 0x008#12 v) :: rest) :
    step s = .next { s with
      schedule := rest, rsp := some Response.written, status := s.status.w1c v SetNow.nothing } :=
  step_of_store rfl h

/-- A write to CTRL sets IE (10_state.md R31). -/
theorem step_of_ctrl_write {s : State} {v : Word} {rest : List Event}
    (h : s.schedule = .txn (Transaction.store 0x00C#12 v) :: rest) :
    step s = .next { s with schedule := rest, rsp := some Response.written, ie := v.getLsbD 0 } :=
  step_of_store rfl h

theorem step_of_reset {s : State} {rest : List Event} (h : s.schedule = .reset :: rest) :
    step s = .next s.popEvent.applyReset := by
  simp only [step, h, nextEvent, applyEvent]

/-! ### The words of the control registers -/

@[simp] theorem windowRead_cfg (s : State) : s.windowRead 0x000#12 = cfgWord s.params := rfl
@[simp] theorem windowRead_ctrl (s : State) : s.windowRead 0x00C#12 = ctrlWord s.ie := rfl

/-- CFG's fixed upper half, EMODES and VERSION, stands above NWORDS (10_state.md R28). -/
theorem cfgWord_eq_append (p : Params) : cfgWord p = 0x0017#16 ++ BitVec.ofNat 16 p.nwords :=
  congrArg (· ++ BitVec.ofNat 16 p.nwords) (by decide : 0#8 ++ 0x1#4 ++ 0#1 ++ 0b111#3 = 0x0017#16)

theorem cfgWord_toNat {p : Params} (hp : p.Wf) : (cfgWord p).toNat = 0x00170000 + p.width / 32 := by
  obtain ⟨-, -, hle, -⟩ := hp
  have hn : p.width / 32 < 2 ^ 16 := by omega
  have hlow : (BitVec.ofNat 16 p.nwords).toNat = p.width / 32 := Nat.mod_eq_of_lt hn
  rw [cfgWord_eq_append, BitVec.toNat_append, hlow, ← Nat.shiftLeft_add_eq_or_of_lt hn]
  rfl

/-- The fields of CFG, low to high (10_state.md R28). -/
theorem cfgWord_fields (p : Params) :
    (cfgWord p).extractLsb' 0 16 = BitVec.ofNat 16 p.nwords ∧ (cfgWord p).extractLsb' 16 3 = 0b111#3 ∧
      (cfgWord p).extractLsb' 19 1 = 0#1 ∧ (cfgWord p).extractLsb' 20 4 = 0x1#4 ∧
      (cfgWord p).extractLsb' 24 8 = 0#8 := by
  rw [cfgWord_eq_append]
  refine ⟨?_, ?_, ?_, ?_, ?_⟩
  · exact (BitVec.extractLsb'_append_eq_of_add_le (by decide)).trans BitVec.extractLsb'_eq_self
  all_goals exact BitVec.extractLsb'_append_eq_of_le (by decide)

theorem ctrlWord_getLsbD (v : Word) : ctrlWord (v.getLsbD 0) = v &&& 1#32 := by
  rw [BitVec.and_one_eq_setWidth_ofBool_getLsbD]
  cases v.getLsbD 0 <;> rfl

/-- The flags of STATUS (10_state.md R30). -/
theorem Status.toWord_flags (st : Status) :
    st.toWord.getLsbD 0 = st.busy ∧ st.toWord.getLsbD 1 = st.done ∧ st.toWord.getLsbD 2 = st.mz ∧
      st.toWord.getLsbD 3 = st.ill ∧ st.toWord.getLsbD 4 = st.wbusy := by
  simp only [Status.toWord, BitVec.getLsbD_append, BitVec.getLsbD_ofBool]
  simp

/-- The fields of STATUS above the flags (10_state.md R30). -/
theorem Status.toWord_fields (st : Status) :
    st.toWord.extractLsb' 5 3 = 0#3 ∧ st.toWord.extractLsb' 8 4 = st.lastop ∧
      st.toWord.extractLsb' 12 2 = st.lastem ∧ st.toWord.extractLsb' 14 18 = 0#18 := by
  simp (disch := decide) only [Status.toWord, BitVec.extractLsb'_append_eq_of_le,
    BitVec.extractLsb'_append_eq_of_add_le, Nat.reduceSub, BitVec.extractLsb'_eq_self, and_self]

/-- Settles O43: CFG's fields, its value, and the ignored write. -/
theorem cfgDescribesTheInstance : Obligations.CfgDescribesTheInstance := by
  refine ⟨fun s hp => ?_, fun s rest v h => step_of_cfg_write h⟩
  have hval := cfgWord_toNat hp
  obtain ⟨hwords, hemodes, hreserved, hversion, htop⟩ := cfgWord_fields s.params
  simp only [windowRead_cfg]
  refine ⟨hval, hwords, hemodes, hreserved, hversion, htop, fun hw => ?_, fun hw => ?_⟩ <;>
    rw [hw] at hval <;> exact BitVec.eq_of_toNat_eq hval

/-- Settles O44, from the laws of `++` on STATUS's word. -/
theorem statusWordLayout : Obligations.StatusWordLayout := by
  intro st
  obtain ⟨hbusy, hdone, hmz, hill, hwbusy⟩ := st.toWord_flags
  exact ⟨hbusy, hdone, hmz, hill, hwbusy, st.toWord_fields⟩

/-- A write-one-to-clear with nothing set in the same cycle (10_state.md R30). -/
theorem Status.w1c_nothing (st : Status) (v : Word) :
    st.w1c v SetNow.nothing = { st with
      done := if v.getLsbD 1 then false else st.done
      mz := if v.getLsbD 2 then false else st.mz
      ill := if v.getLsbD 3 then false else st.ill
      wbusy := if v.getLsbD 4 then false else st.wbusy } := by
  have clear (named flag : Bool) : (flag && !named) = if named then false else flag := by cases named <;> simp
  simp only [Status.w1c, SetNow.nothing, Bool.false_or, clear]

/-- Settles O45: the write is `Status.w1c` with no flag set in the same cycle. -/
theorem statusWriteClearsNamedFlags : Obligations.StatusWriteClearsNamedFlags := by
  intro s rest v h
  rw [step_of_status_write h, Status.w1c_nothing]
  rfl

/-- Settles O46: the write of CTRL, what CTRL then reads, and the reset. -/
theorem ctrlHoldsInterruptEnable : Obligations.CtrlHoldsInterruptEnable := by
  refine ⟨fun s rest v h => ⟨_, step_of_ctrl_write h, rfl, ctrlWord_getLsbD v⟩, fun s t rest h ht => ?_⟩
  obtain rfl : s.popEvent.applyReset = t := by simpa [step_of_reset h] using ht
  rfl

/-- Settles O47: IE alone changes in a write to CTRL, the flags alone in a write to STATUS. -/
theorem irqIsALevelOfIeAndFlags : Obligations.IrqIsALevelOfIeAndFlags := by
  refine ⟨fun _ => rfl, fun s t rest h ht => ?_, fun s t rest v h hdone hill hwbusy ht => ?_⟩
  · rw [step_of_ctrl_write h, Host.Outcome.next.injEq] at ht
    simp [← ht, State.irq]
  · rw [step_of_status_write h, Host.Outcome.next.injEq] at ht
    simp [← ht, State.irq, SetNow.nothing, hdone, hill, hwbusy]

end Sys2Proof.Machine

/-!
PROOFS of the statements about the register window (20_memory.md): the register map, what its offsets read, what a host
write to each of them does, and what becomes of a transaction in the cycle of a clock edge.
-/

namespace Sys2Proof.Machine

/-! ### An operand word in bytes -/

/-- A byte of the big-endian buffer is eight adjacent bits of the register (41_bigint_primitives.md R141). -/
theorem bigEndianByte_eq_extractLsb' (w : Nat) (v : Operand) (k : Nat) :
    bigEndianByte w v.toNat k = v.extractLsb' (w - 8 - 8 * k) 8 := by
  rw [bigEndianByte, BitVec.extractLsb', Nat.shiftRight_eq_div_pow]

/-- Settles O35: the word and its four bytes are adjacent slices of the register. -/
theorem operandWordsAreBigEndian : Obligations.OperandWordsAreBigEndian := by
  rintro p v j ⟨h32, hlo, -⟩ hj
  have hj : 32 * j + 32 ≤ p.width := by
    have : j < p.width / 32 := hj
    omega
  refine ⟨fun i hi => getLsbD_wordOf _ _ _ _ hi, ?_⟩
  simp only [bigEndianByte_eq_extractLsb']
  rw [BitVec.extractLsb'_append_extractLsb'_eq_extractLsb' (by omega),
    BitVec.extractLsb'_append_extractLsb'_eq_extractLsb' (by omega),
    BitVec.extractLsb'_append_extractLsb'_eq_extractLsb' (by omega)]
  rw [show p.width - 8 - 8 * (4 * j + 3) = p.width - 32 - 32 * j by omega]
  rfl

/-! ### The register map -/

/-- A register's window is the 256 bytes from its base (20_memory.md R61). -/
theorem windowReg_eq_some_iff {a : Offset} {r : OperandReg} :
    windowReg a = some r ↔ r.base ≤ a.toNat ∧ a.toNat < r.base + 0x100 := by
  have hdiv : windowReg a = some r ↔ a.toNat / 256 = r.base / 256 := by
    unfold windowReg
    split <;> rename_i h
    case h_6 => cases r <;> simp_all [OperandReg.base]
    all_goals rw [h]; cases r <;> decide
  rw [hdiv]
  cases r <;> simp only [OperandReg.base] <;> omega

/-- An operand window reaches the register's words, and nothing beyond them (20_memory.md R61, R64). -/
theorem target_of_windowReg {n : Nat} {a : Offset} {r : OperandReg} (h : windowReg a = some r) :
    target n a = if windowWord a < n then .operand r (windowWord a) else .unmapped := by
  have hne (c : Offset) (hc : windowReg c = none) : a ≠ c := by
    rintro rfl
    simp [hc] at h
  simp only [target, hne _ (by rfl : windowReg 0x000#12 = none), hne _ (by rfl : windowReg 0x004#12 = none),
    hne _ (by rfl : windowReg 0x008#12 = none), hne _ (by rfl : windowReg 0x00C#12 = none), if_false, h]

/-- The offset of word `j` of a register lies in its window and names the word (20_memory.md R62, R68). -/
theorem windowReg_of_word {a : Offset} {r : OperandReg} {j : Nat} (ha : a.toNat = r.base + 4 * j) (hj : j < 64) :
    windowReg a = some r ∧ windowWord a = j := by
  refine ⟨windowReg_eq_some_iff.2 (by omega), ?_⟩
  rw [windowWord, ha]
  cases r <;> simp only [OperandReg.base] <;> omega

theorem target_of_word {n : Nat} {a : Offset} {r : OperandReg} {j : Nat} (ha : a.toNat = r.base + 4 * j)
    (hj : j < 64) : target n a = if j < n then .operand r j else .unmapped := by
  obtain ⟨hr, hw⟩ := windowReg_of_word ha hj
  rw [target_of_windowReg hr, hw]

/-- The offsets between CTRL and OPA's window, and those above RESULT's, reach nothing (20_memory.md R65). -/
theorem target_reserved {n : Nat} {a : Offset} (h : (0x010 ≤ a.toNat ∧ a.toNat < 0x100) ∨ 0x600 ≤ a.toNat) :
    target n a = .unmapped := by
  have hreg : windowReg a = none := by
    rw [Option.eq_none_iff_forall_ne_some]
    intro r hr
    rw [windowReg_eq_some_iff] at hr
    cases r <;> simp only [OperandReg.base] at hr <;> omega
  have hne (c : Offset) (hc : c.toNat < 0x010) : a ≠ c := by
    rintro rfl
    omega
  simp [target, hne 0x000#12 (by decide), hne 0x004#12 (by decide), hne 0x008#12 (by decide),
    hne 0x00C#12 (by decide), hreg]

/-- The offsets of an operand window above the register's last word reach nothing (20_memory.md R64). -/
theorem target_unused {n : Nat} {a : Offset} {r : OperandReg} (hlo : r.base + 4 * n ≤ a.toNat)
    (hhi : a.toNat < r.base + 0x100) : target n a = .unmapped := by
  have hw : ¬ windowWord a < n := by
    rw [windowWord]
    cases r <;> simp only [OperandReg.base] at hlo hhi <;> omega
  rw [target_of_windowReg (windowReg_eq_some_iff.2 ⟨by omega, hhi⟩), if_neg hw]

theorem toNat_ofNat_word (r : OperandReg) {j : Nat} (hj : j < 64) :
    (BitVec.ofNat 12 (r.base + 4 * j)).toNat = r.base + 4 * j := by
  rw [BitVec.toNat_ofNat]
  cases r <;> simp only [OperandReg.base] <;> omega

/-- Settles O36: the offsets by name, by word, and the rest. -/
theorem registerMap : Obligations.RegisterMap := by
  intro n hn
  have hword (r : OperandReg) {j : Nat} (hj : j < n) : target n (BitVec.ofNat 12 (r.base + 4 * j)) = .operand r j := by
    rw [target_of_word (toNat_ofNat_word r (by omega)) (by omega), if_pos hj]
  refine ⟨rfl, rfl, rfl, rfl, fun j hj => ?_, fun r j hlo hj => ?_, fun a hlo hhi => ?_, fun a hlo => ?_⟩
  · exact ⟨hword .opa hj, hword .opb hj, hword .mod hj, hword .exp hj, hword .result hj⟩
  · rw [target_of_word (toNat_ofNat_word r hj) hj, if_neg (by omega)]
  · exact target_reserved (.inl ⟨hlo, hhi⟩)
  · exact target_reserved (.inr hlo)

/-! ### What the window reads -/

theorem windowRead_of_operand {s : State} {a : Offset} {r : OperandReg} {j : Nat}
    (h : target s.params.nwords a = .operand r j) : s.windowRead a = wordOf s.params.width (s.reg r) j := by
  simp [State.windowRead, h]

theorem windowRead_of_unmapped {s : State} {a : Offset} (h : target s.params.nwords a = .unmapped) :
    s.windowRead a = 0#32 := by
  simp [State.windowRead, h]

/-- An offset reads the same in two states of one core that agree on what the register map holds there. -/
theorem windowRead_congr {s t : State} {a : Offset} (hp : t.params = s.params) (hie : t.ie = s.ie)
    (hst : a = 0x008#12 → t.status = s.status)
    (hop : ∀ q k, target s.params.nwords a = .operand q k →
      wordOf s.params.width (t.reg q) k = wordOf s.params.width (s.reg q) k) : t.windowRead a = s.windowRead a := by
  simp only [State.windowRead, hp, hie]
  cases ht : target s.params.nwords a with
  | operand q k => exact hop q k ht
  | status => exact congrArg Status.toWord (hst (target_eq_status ht))
  | _ => rfl

theorem schedule_reg (s : State) (es : List Event) (q : OperandReg) :
    State.reg { s with schedule := es } q = s.reg q := by
  cases q <;> rfl

/-- What is scheduled next is not in the window. -/
theorem windowRead_schedule (s : State) (es : List Event) (a : Offset) :
    State.windowRead { s with schedule := es } a = s.windowRead a :=
  windowRead_congr rfl rfl (fun _ => rfl) fun _ _ _ => by rw [schedule_reg]

@[simp] theorem respond_windowRead (s : State) (r : Response) (a : Offset) :
    (s.respond r).windowRead a = s.windowRead a :=
  windowRead_congr rfl rfl (fun _ => rfl) fun _ _ _ => by rw [State.respond_reg]

/-! ### A host write, by what its offset reaches -/

theorem hostWrite_operand {s : State} {a : Offset} {r : OperandReg} {j : Nat} (v : Word) (now : SetNow)
    (h : target s.params.nwords a = .operand r j) (hr : r ≠ .result) :
    hostWrite a v now s = .next (s.operandWrite r j v) := by
  cases r with
  | result => exact absurd rfl hr
  | _ => simp [hostWrite, h]

/-- A write to RESULT's words is ignored (20_memory.md R71). -/
theorem hostWrite_result {s : State} {a : Offset} {j : Nat} (v : Word) (now : SetNow)
    (h : target s.params.nwords a = .operand .result j) : hostWrite a v now s = .next s := by
  simp [hostWrite, h]

theorem hostWrite_unmapped {s : State} {a : Offset} (v : Word) (now : SetNow)
    (h : target s.params.nwords a = .unmapped) : hostWrite a v now s = .next s := by
  simp [hostWrite, h]

/-- The flags that the clock sets in the cycle matter to a write of STATUS only (60_exceptions.md R227b). -/
theorem hostWrite_now {s : State} {a : Offset} (v : Word) (now now' : SetNow) (h : a ≠ 0x008#12) :
    hostWrite a v now s = hostWrite a v now' s := by
  unfold hostWrite
  split <;> try rfl
  exact absurd (target_eq_status ‹_›) h

theorem issueCommand_rsp (v : Word) (s : State) : ∃ t, issueCommand v s = .next t ∧ t.rsp = s.rsp := by
  cases hb : s.status.busy with
  | true => exact ⟨_, issueCommand_busy hb v, rfl⟩
  | false =>
    cases hd : decode v with
    | command i => exact ⟨_, issueCommand_command hb hd, State.accept_rsp _ _ _⟩
    | illegal why => exact ⟨_, issueCommand_illegal hb hd, rfl⟩

theorem operandWrite_busy {s : State} (h : s.status.busy = true) (r : OperandReg) (j : Nat) (v : Word) :
    s.operandWrite r j v = s.setWbusy := by
  simp [State.operandWrite, h]

theorem operandWrite_idle {s : State} (h : s.status.busy = false) (r : OperandReg) (j : Nat) (v : Word) :
    s.operandWrite r j v = s.setReg r (setWord s.params.width (s.reg r) j v) := by
  simp [State.operandWrite, h]

/-- No host write touches the response. -/
theorem hostWrite_rsp (a : Offset) (v : Word) (now : SetNow) (s : State) :
    ∃ t, hostWrite a v now s = .next t ∧ t.rsp = s.rsp := by
  cases ht : target s.params.nwords a with
  | cmd => rw [target_eq_cmd ht]; exact issueCommand_rsp v s
  | operand r j =>
    by_cases hr : r = .result
    · exact ⟨s, hostWrite_result v now (hr ▸ ht), rfl⟩
    · refine ⟨_, hostWrite_operand v now ht hr, ?_⟩
      cases hb : s.status.busy with
      | true => rw [operandWrite_busy hb, State.setWbusy_rsp]
      | false => rw [operandWrite_idle hb, State.setReg_rsp]
  | unmapped => exact ⟨s, hostWrite_unmapped v now ht, rfl⟩
  | _ => simp [hostWrite, ht]

theorem setReg_respond (s : State) (p : Response) (r : OperandReg) (x : Operand) :
    (s.respond p).setReg r x = (s.setReg r x).respond p := by
  cases r <;> rfl

/-- A write of an operand word to a busy core is dropped with WBUSY (20_memory.md R70). -/
theorem transact_droppedWord {s : State} {a : Offset} {r : OperandReg} {j : Nat} (ha : a.toNat % 4 = 0)
    (ht : target s.params.nwords a = .operand r j) (hr : r ≠ .result) (hb : s.status.busy = true) (v : Word)
    (now : SetNow) : transact (Transaction.store a v) now s = .next (s.respond Response.written).setWbusy := by
  rw [transact_store v now s ha, hostWrite_operand (s := s.respond Response.written) v now ht hr,
    operandWrite_busy (s := s.respond Response.written) hb]

/-- A write of an operand word to an idle core stores it (20_memory.md R70). -/
theorem transact_storedWord {s : State} {a : Offset} {r : OperandReg} {j : Nat} (ha : a.toNat % 4 = 0)
    (ht : target s.params.nwords a = .operand r j) (hr : r ≠ .result) (hb : s.status.busy = false) (v : Word)
    (now : SetNow) :
    transact (Transaction.store a v) now s =
      .next ((s.setReg r (setWord s.params.width (s.reg r) j v)).respond Response.written) := by
  rw [transact_store v now s ha, hostWrite_operand (s := s.respond Response.written) v now ht hr,
    operandWrite_idle (s := s.respond Response.written) hb, setReg_respond, State.respond_reg, State.respond_params]

/-- A word stored reads as written (20_memory.md R70). -/
theorem windowRead_store_same {s : State} {a : Offset} {r : OperandReg} {j : Nat} (hp : s.params.Wf)
    (h : target s.params.nwords a = .operand r j) (v : Word) :
    (s.setReg r (setWord s.params.width (s.reg r) j v)).windowRead a = v := by
  obtain ⟨-, hlo, hhi, -⟩ := hp
  rw [windowRead_of_operand (by rwa [State.setReg_params]), State.reg_setReg_same, State.setReg_params]
  exact wordOf_setWord_same _ _ _ _ hhi (by omega)

/-- Every other offset of the window reads as before the store (20_memory.md R70). -/
theorem windowRead_store_other {s : State} {a b : Offset} {r : OperandReg} {j : Nat} (hp : s.params.Wf)
    (h : target s.params.nwords a = .operand r j) (hb : target s.params.nwords b ≠ .operand r j) (v : Word) :
    (s.setReg r (setWord s.params.width (s.reg r) j v)).windowRead b = s.windowRead b := by
  obtain ⟨-, -, hhi, -⟩ := hp
  refine windowRead_congr (by simp) (by simp) (fun _ => by simp) fun q k hk => ?_
  by_cases hq : q = r
  · subst hq
    obtain ⟨-, -, hj⟩ := target_eq_operand h
    obtain ⟨-, -, hk'⟩ := target_eq_operand hk
    rw [State.reg_setReg_same, wordOf_setWord_other _ _ _ _ _ hhi hj hk']
    rintro rfl
    exact hb hk
  · rw [State.reg_setReg_other _ _ _ _ hq]

/-! ### Transactions that are steps of their own -/

/-- A write to an offset that ignores it changes only the response. -/
theorem step_of_ignored_store {s : State} {a : Offset} {v : Word} {rest : List Event} (ha : a.toNat % 4 = 0)
    (ht : target s.params.nwords a = .unmapped ∨ ∃ j, target s.params.nwords a = .operand .result j)
    (h : s.schedule = .txn (Transaction.store a v) :: rest) :
    step s = .next { s with schedule := rest, rsp := some Response.written } := by
  rw [step_of_store ha h]
  rcases ht with ht | ⟨j, ht⟩
  · exact hostWrite_unmapped _ _ ht
  · exact hostWrite_result _ _ ht

theorem ctrlWord_eq_ite (ie : Bool) : ctrlWord ie = if ie then 1#32 else 0#32 := by cases ie <;> rfl

/-- Settles O37: the read's step, and the window offset by offset. -/
theorem readsReturnTheRegisterAndChangeNothing : Obligations.ReadsReturnTheRegisterAndChangeNothing := by
  intro s rest a d ha h
  refine ⟨?_, ?_, ?_, ?_, ?_, fun r j hj hr => ?_, fun hr => windowRead_of_unmapped (target_reserved hr)⟩
  · rw [step_of_txn h, transact_read _ _ ((accessOk_iff _).2 ⟨rfl, ha⟩) rfl, windowRead_schedule]
    rfl
  · rintro rfl; exact windowRead_cfg s
  · rintro rfl; rfl
  · rintro rfl; rfl
  · rintro rfl; exact ctrlWord_eq_ite s.ie
  · have ht := target_of_word (n := s.params.nwords) hr hj
    split <;> rename_i hlt
    · exact windowRead_of_operand (ht.trans (if_pos hlt))
    · exact windowRead_of_unmapped (ht.trans (if_neg hlt))

/-- Settles O38: the store of an idle core, and the drop of a busy one. -/
theorem operandWordWrite : Obligations.OperandWordWrite := by
  intro s rest a v r j hp h ha ht hr
  refine ⟨fun hb => ⟨setWord s.params.width (s.reg r) j v, ?_, windowRead_store_same hp ht v,
    fun b hne => windowRead_store_other hp ht hne v⟩, fun hb => ?_⟩
  · rw [step_of_txn h, transact_storedWord (s := { s with schedule := rest }) ha ht hr hb, schedule_reg]
    cases r <;> rfl
  · rw [step_of_txn h, transact_droppedWord (s := { s with schedule := rest }) ha ht hr hb]
    rfl

/-- Settles O39: every one of these offsets reaches nothing. -/
theorem reservedOffsetsIgnoreWrites : Obligations.ReservedOffsetsIgnoreWrites := by
  rintro s rest a v ⟨h32, -⟩ ha hoff
  have ht : target s.params.nwords a = .unmapped := by
    rcases hoff with hlow | hhigh | ⟨r, hlo, hhi⟩
    · exact target_reserved (.inl hlow)
    · exact target_reserved (.inr hhigh)
    · refine target_unused (r := r) ?_ hhi
      rw [Params.nwords]
      omega
  exact ⟨step_of_ignored_store ha (.inl ht), windowRead_of_unmapped ht⟩

/-- A transaction that passes the access check answers no error (20_memory.md R67). -/
theorem transact_rsp_of_accessOk {tr : Transaction} (h : tr.accessOk = true) (now : SetNow) (s : State) :
    ∃ t d, transact tr now s = .next t ∧ t.rsp = some { rdata := d, err := false } := by
  cases hw : tr.write with
  | false => exact ⟨_, _, transact_read now s h hw, rfl⟩
  | true =>
    obtain ⟨t, ht, hrsp⟩ := hostWrite_rsp tr.addr tr.wdata now (s.respond Response.written)
    exact ⟨t, 0#32, by simpa [transact, h, hw] using ht, hrsp⟩

/-- Settles O40: the access check decides between the error and no error. -/
theorem busErrorChangesNothing : Obligations.BusErrorChangesNothing := by
  intro s rest tr h
  refine ⟨fun hbad => ?_, fun hok => ?_⟩
  · have hok : tr.accessOk = false := by
      rw [← Bool.not_eq_true, accessOk_iff]
      tauto
    rw [step_of_txn h, transact_busError _ _ hok]
    rfl
  · rw [step_of_txn h]
    exact transact_rsp_of_accessOk ((accessOk_iff tr).2 hok) _ _

/-! ### Which steps change RESULT -/

theorem State.Inv.busy_of_active {s : State} {c : Active} (h : s.Inv) (ha : s.active = some c) :
    s.status.busy = true :=
  ((inv_iff s).mp h).2.busy_of_active ha

/-- A clock edge that changes RESULT is the last of a latency (20_memory.md R71; 40_command_lifecycle.md R112). -/
theorem State.Inv.completion_of_result_changed {s : State} (h : s.Inv) (hne : s.clock.result ≠ s.result) :
    s.status.busy = true ∧ s.cyc = 1 := by
  rcases clock_cases s with ⟨-, e⟩ | ⟨c, ha, ⟨-, e⟩ | ⟨-, e⟩⟩
  · simp [e] at hne
  · simp [e] at hne
  · have hb : s.status.busy = true := h.busy_of_active ha
    exact ⟨hb, h.cyc_of_completion hb (by simp [e])⟩

theorem Transacted.result {tr : Transaction} {now : SetNow} {s t : State} (h : Transacted tr now s t) :
    t.result = s.result := by
  obtain ⟨-, hres, -⟩ := h.frame
  exact hres

/-- What changes RESULT: a reset, or the clock edge that completes a command. -/
theorem Happened.result_changed {s t : State} {e : Event} (h : Happened s e t) (hs : s.Inv)
    (hne : t.result ≠ s.result) :
    e = .reset ∨ (s.status.busy = true ∧ s.cyc = 1 ∧ (e = .tick ∨ ∃ tr first, e = .cycle tr first)) := by
  cases h with
  | txn k => exact absurd k.result hne
  | tick =>
    obtain ⟨hb, hc⟩ := hs.completion_of_result_changed hne
    exact .inr ⟨hb, hc, .inl rfl⟩
  | cycleIdle _ k => exact absurd k.result hne
  | cycleBefore hb k =>
    rw [← k.result] at hne
    obtain ⟨-, hc⟩ := (k.inv hs fun _ => ⟨rfl, rfl⟩).completion_of_result_changed hne
    obtain ⟨-, -, -, hcyc, -⟩ := k.busy hb
    exact .inr ⟨hb, hcyc ▸ hc, .inr ⟨_, _, rfl⟩⟩
  | cycleAfter hb k =>
    rw [k.result] at hne
    obtain ⟨-, hc⟩ := hs.completion_of_result_changed hne
    exact .inr ⟨hb, hc, .inr ⟨_, _, rfl⟩⟩
  | work => exact absurd (work_outside s).result hne
  | reset => exact .inl rfl

/-- Every offset of RESULT's window is a word of RESULT or unused. -/
theorem target_resultWindow {n : Nat} {a : Offset} (hlo : 0x500 ≤ a.toNat) (hhi : a.toNat < 0x600) :
    target n a = .unmapped ∨ ∃ j, target n a = .operand .result j := by
  have hr : windowReg a = some .result := windowReg_eq_some_iff.2 ⟨hlo, hhi⟩
  rw [target_of_windowReg hr]
  split
  · exact .inr ⟨_, rfl⟩
  · exact .inl rfl

/-- Settles O41: of the events of a step only a completion or a reset reaches RESULT, and its window ignores stores. -/
theorem resultChangesOnlyAtCompletion : Obligations.ResultChangesOnlyAtCompletion := by
  refine ⟨fun s t hs h hne => ?_, fun s rest a v hlo hhi ha h => ?_⟩
  · exact (step_cases h).result_changed hs.popEvent hne
  · exact step_of_ignored_store ha (target_resultWindow hlo hhi) h

/-! ### A clock edge and a transaction in one cycle -/

theorem step_of_tick {s : State} {rest : List Event} (h : s.schedule = .tick :: rest) :
    step s = .next (State.clock { s with schedule := rest }) := by
  simp only [step, h, nextEvent, applyEvent, State.popEvent, List.tail_cons]

theorem step_of_cycle {s : State} {tr : Transaction} {first : First} {rest : List Event}
    (h : s.schedule = .cycle tr first :: rest) : step s = sameCycle tr first { s with schedule := rest } := by
  simp only [step, h, nextEvent, applyEvent, State.popEvent, List.tail_cons]

theorem sameCycle_idle {s : State} (h : s.status.busy = false) (tr : Transaction) (first : First) :
    sameCycle tr first s = transact tr SetNow.nothing s := by
  simp [sameCycle, h]

theorem sameCycle_transactionFirst {s : State} (h : s.status.busy = true) (tr : Transaction) :
    sameCycle tr .transaction s = mapNext State.clock (transact tr SetNow.nothing s) := by
  simp [sameCycle, h]

theorem sameCycle_clockFirst {s : State} (h : s.status.busy = true) (tr : Transaction) :
    sameCycle tr .clock s = transact tr s.setByClock s.clock := by
  simp [sameCycle, h]

/-- A clock edge does the same whatever the port last answered. -/
theorem clock_respond (s : State) (r : Response) : (s.respond r).clock = s.clock.respond r := by
  refine (clock_external s s.schedule (some r)).trans ?_
  rw [← clock_schedule s]
  rfl

/-- A clock edge does the same whatever is scheduled after it. -/
theorem clock_setSchedule (s : State) (es : List Event) :
    State.clock { s with schedule := es } = { s.clock with schedule := es } := by
  simpa using clock_external s es s.rsp

theorem transact_now {tr : Transaction} (now now' : SetNow) (s : State)
    (h : tr.accessOk = false ∨ tr.write = false ∨ tr.addr ≠ 0x008#12) : transact tr now s = transact tr now' s := by
  unfold transact
  split
  · rfl
  split
  · exact hostWrite_now _ _ _ (by simp_all)
  · rfl

theorem transact_statusWrite {tr : Transaction} (hok : tr.accessOk = true) (hw : tr.write = true)
    (ha : tr.addr = 0x008#12) (now : SetNow) (s : State) :
    transact tr now s = .next { s with rsp := some Response.written, status := s.status.w1c tr.wdata now } := by
  unfold transact
  rw [if_neg (by simp [hok]), if_pos hw, ha]
  rfl

/-- Whatever flags the clock sets in the cycle, only DONE and MZ can differ after the transaction. -/
theorem transact_now_flags (tr : Transaction) (now : SetNow) (s : State) :
    ∃ t u, transact tr now s = .next t ∧ transact tr SetNow.nothing s = .next u ∧
      t = { u with status := { u.status with done := t.status.done, mz := t.status.mz } } := by
  by_cases h : tr.accessOk = false ∨ tr.write = false ∨ tr.addr ≠ 0x008#12
  · obtain ⟨u, hu, -⟩ := transact_cases tr SetNow.nothing s
    exact ⟨u, u, (transact_now _ _ _ h).trans hu, hu, rfl⟩
  · simp only [not_or, Bool.not_eq_false, ne_eq, Decidable.not_not] at h
    obtain ⟨hok, hw, ha⟩ := h
    exact ⟨_, _, transact_statusWrite hok hw ha now s, transact_statusWrite hok hw ha SetNow.nothing s, rfl⟩

/-- A clock edge before the last of the latency sets no flag (40_command_lifecycle.md R112). -/
theorem setByClock_of_counting {s : State} (hb : s.status.busy = true) (hc : 1 < s.cyc) :
    s.setByClock = SetNow.nothing := by
  have hb' : s.clock.status.busy = true := by
    rcases clock_cases s with ⟨-, e⟩ | ⟨c, -, ⟨-, e⟩ | ⟨hle, -⟩⟩
    · rw [e, hb]
    · rw [e]; exact hb
    · omega
  simp [State.setByClock, hb', SetNow.nothing]

/-- A transaction, then a clock edge. -/
theorem run_txn_tick (s : State) (tr : Transaction) (rest : List Event) :
    Host.Core.run core 2 ({ s with schedule := .txn tr :: .tick :: rest } : State) =
      mapNext State.clock (transact tr SetNow.nothing { s with schedule := rest }) := by
  obtain ⟨t, ht, k⟩ := transact_cases tr SetNow.nothing { s with schedule := rest }
  have hfirst : step { s with schedule := .txn tr :: .tick :: rest } = .next { t with schedule := .tick :: rest } := by
    have e := transact_schedule tr SetNow.nothing { s with schedule := rest } (.tick :: rest)
    rw [ht] at e
    exact (step_of_txn rfl).trans e
  have hsched : t.schedule = rest := by
    obtain ⟨-, -, e, -⟩ := k.frame
    exact e
  rw [run_first 1 hfirst, run_first 0 (step_of_tick rfl), run_zero, ht, ← hsched]
  rfl

/-- A clock edge, then a transaction. -/
theorem run_tick_txn (s : State) (tr : Transaction) (rest : List Event) :
    Host.Core.run core 2 ({ s with schedule := .tick :: .txn tr :: rest } : State) =
      transact tr SetNow.nothing (State.clock { s with schedule := rest }) := by
  have hfirst : Host.Core.run core 1 ({ s with schedule := .tick :: .txn tr :: rest } : State) =
      .next (State.clock { s with schedule := .txn tr :: rest }) := run_first 0 (step_of_tick rfl)
  rw [run_last 1 hfirst, step_of_txn (clock_schedule _), clock_setSchedule s (.txn tr :: rest),
    clock_setSchedule s rest]

/-- Settles O56: in each order, the run of the two events, up to the flags that the edge sets. -/
theorem sameCycleIsBothInSomeOrder : Obligations.SameCycleIsBothInSomeOrder := by
  intro s rest tr first h
  refine ⟨fun hb => ?_, ?_, ?_⟩ <;> rw [step_of_cycle h]
  · rw [sameCycle_idle (s := { s with schedule := rest }) hb, step_of_txn rfl]
  · rintro hb rfl
    rw [sameCycle_transactionFirst (s := { s with schedule := rest }) hb, run_txn_tick]
  · rintro hb rfl
    rw [sameCycle_clockFirst (s := { s with schedule := rest }) hb, run_tick_txn]
    obtain ⟨t, u, ht, hu, hflags⟩ := transact_now_flags tr (State.setByClock { s with schedule := rest })
      (State.clock { s with schedule := rest })
    refine ⟨t, u, ht, hu, hflags, fun hsame => ?_⟩
    have e : transact tr (State.setByClock { s with schedule := rest }) (State.clock { s with schedule := rest }) =
        transact tr SetNow.nothing (State.clock { s with schedule := rest }) := by
      rcases hsame with hc | hother
      · rw [setByClock_of_counting (s := { s with schedule := rest }) hb hc]
      · exact transact_now _ _ _ hother
    rw [ht, hu] at e
    exact Host.Outcome.next.inj e

/-- Settles O57: the edge does not see the response, nor the read's answer anything but the window. -/
theorem readRacesClockEdge : Obligations.ReadRacesClockEdge := by
  intro s rest a d first hs ha h
  refine ⟨State.clock { s with schedule := rest }, step_of_tick rfl, ?_⟩
  have hread (now : SetNow) (t : State) :
      transact { write := false, addr := a, size := 2#2, wdata := d } now t =
        .next (t.respond { rdata := t.windowRead a, err := false }) :=
    transact_read now t ((accessOk_iff _).2 ⟨rfl, ha⟩) rfl
  rw [step_of_cycle h]
  cases hb : s.status.busy with
  | false =>
    have hidle : State.clock { s with schedule := rest } = { s with schedule := rest } :=
      clock_idle (by simpa [hb] using hs.busyActive)
    rw [sameCycle_idle (s := { s with schedule := rest }) hb, hread, hidle, windowRead_schedule]
    cases first <;> rfl
  | true =>
    cases first with
    | transaction =>
      rw [sameCycle_transactionFirst (s := { s with schedule := rest }) hb, hread, mapNext, clock_respond,
        windowRead_schedule]
      rfl
    | clock =>
      rw [sameCycle_clockFirst (s := { s with schedule := rest }) hb, hread]
      rfl

/-! ### What a command leaves in RESULT -/

/-- One iteration of the square-and-multiply loop takes `base` to the exponent's leading bits one bit further
(44_square_and_multiply_engine.md R196). -/
theorem squareAndMultiply_eq_pow {base e m i acc : Nat} (x : Nat) (hm : m ≠ 0)
    (hacc : acc % m = base ^ (e / 2 ^ (i + 1)) % m) :
    select (bitOf e i) (modMul (modMul acc acc m x) base m x) (modMul acc acc m x) = base ^ (e / 2 ^ i) % m := by
  have hbits : e / 2 ^ i = e / 2 ^ (i + 1) + e / 2 ^ (i + 1) + (bitOf e i).toNat := by
    have h := Nat.div_add_mod (e / 2 ^ i) 2
    rw [Nat.div_div_eq_div_mul, ← pow_succ] at h
    rw [bitOf, Nat.toNat_testBit]
    omega
  have hsq : acc * acc % m = base ^ (e / 2 ^ (i + 1) + e / 2 ^ (i + 1)) % m := by
    rw [pow_add]
    exact Nat.ModEq.mul hacc hacc
  simp only [modMul, if_neg hm, multiplyFull]
  rw [hbits]
  cases bitOf e i with
  | false => exact hsq
  | true =>
    rw [Bool.toNat_true, pow_succ]
    exact Nat.ModEq.mul_right base ((Nat.mod_mod _ _).trans hsq)

/-- The loop ends at the whole power (44_square_and_multiply_engine.md R196). -/
theorem modExpLoop_eq_pow {base e m : Nat} (x : Nat) (hm : m ≠ 0) (n : Nat) : ∀ {acc : Nat},
    acc % m = base ^ (e / 2 ^ (n + 1)) % m → modExpLoop base e m x (n + 1) acc = base ^ e % m := by
  induction n with
  | zero =>
    intro acc hacc
    have h := squareAndMultiply_eq_pow x hm hacc
    rwa [pow_zero, Nat.div_one] at h
  | succ n ih =>
    intro acc hacc
    have h := squareAndMultiply_eq_pow x hm hacc
    exact ih ((congrArg (· % m) h).trans (Nat.mod_mod _ _))

/-- `ModExp` is the power modulo `m` (44_square_and_multiply_engine.md R196). -/
theorem modExp_eq_pow {base e w m : Nat} (x : Nat) (hm : m ≠ 0) (hw : 0 < w) (he : e < 2 ^ w) :
    modExp base e w m x = base ^ e % m := by
  obtain ⟨n, rfl⟩ := Nat.exists_eq_add_one_of_ne_zero hw.ne'
  exact modExpLoop_eq_pow x hm n (by rw [Nat.div_eq_of_lt he, pow_zero])

theorem operand_toNat_ne_zero {v : Operand} (h : v ≠ 0#2048) : v.toNat ≠ 0 := by
  rwa [ne_eq, BitVec.toNat_eq, BitVec.toNat_zero] at h

/-- With MOD not zero a command's value is the one of the spec's arithmetic (42_modular_multiplier.md R151;
44_square_and_multiply_engine.md R196). -/
theorem commandResult_eq_expectedResult {s : State} {c : Active} (x : Nat) (hw : 0 < c.width) (hm : s.mod ≠ 0#2048) :
    s.commandResult c x = s.expectedResult c := by
  rw [State.commandResult, State.expectedResult]
  cases c.op with
  | modmul => exact if_neg (operand_toNat_ne_zero hm)
  | modexp => exact modExp_eq_pow x (operand_toNat_ne_zero hm) hw (Nat.mod_lt _ (by positivity))

theorem expectedResult_lt {s : State} (c : Active) (hm : s.mod ≠ 0#2048) : s.expectedResult c < s.mod.toNat := by
  have hpos : 0 < s.mod.toNat := Nat.pos_of_ne_zero (operand_toNat_ne_zero hm)
  rw [State.expectedResult]
  split <;> exact Nat.mod_lt _ hpos

/-- A completion with MOD not zero leaves the command's value in RESULT (40_command_lifecycle.md R113, R119). -/
theorem complete_result_toNat {s : State} {c : Active} (hw : 0 < c.width) (hm : s.mod ≠ 0#2048) :
    (s.complete c).result.toNat = s.expectedResult c := by
  rw [complete_result, commandResult_eq_expectedResult _ hw hm, BitVec.toNat_ofNat]
  exact Nat.mod_eq_of_lt ((expectedResult_lt c hm).trans s.mod.isLt)

theorem State.Inv.active_width_pos {s : State} {c : Active} (h : s.Inv) (ha : s.active = some c) : 0 < c.width := by
  obtain ⟨m, k⟩ := h.inFlight c ha
  rw [k.width]
  exact emodeWidth_pos h.params m

/-! ### An operand word written in the cycle of a completion -/

theorem setReg_result {s : State} {r : OperandReg} (hr : r ≠ .result) (v : Operand) :
    (s.setReg r v).result = s.result :=
  s.reg_setReg_other r .result v hr.symm

/-- A completion changes the window only in STATUS and RESULT (40_command_lifecycle.md R113). -/
theorem complete_windowRead (s : State) (c : Active) {b : Offset} (hb : b ≠ 0x008#12)
    (hres : ∀ k, target s.params.nwords b ≠ .operand .result k) : (s.complete c).windowRead b = s.windowRead b := by
  refine windowRead_congr (complete_params s c) (complete_ie s c) (fun h => absurd h hb) fun q k hk => ?_
  cases q with
  | result => exact absurd hk (hres k)
  | _ => simp [State.reg]

theorem State.Inv.dropEvent {s : State} {e : Event} {rest : List Event} (h : s.Inv) (hs : s.schedule = e :: rest) :
    State.Inv { s with schedule := rest } := by
  have hpop := h.popEvent
  rwa [State.popEvent, hs, List.tail_cons] at hpop

section WordInLastCycle

variable {s : State} {a : Offset} {r : OperandReg} {j : Nat} {c : Active} (hs : s.Inv) (hact : s.active = some c)
  (hcyc : s.cyc = 1) (ha : a.toNat % 4 = 0) (ht : target s.params.nwords a = .operand r j) (hr : r ≠ .result)

include hs hact hcyc ha ht hr

/-- Ordered before the completing edge, the word is dropped with WBUSY (60_exceptions.md R223, R228). -/
theorem sameCycle_wordThenCompletion (v : Word) :
    ∃ t, sameCycle (Transaction.store a v) .transaction s = .next t ∧ sameOperands s t ∧ t.status.wbusy = true ∧
      t.status.busy = false ∧ t.status.done = true ∧ (s.mod ≠ 0#2048 → t.result.toNat = s.expectedResult c) := by
  have hb : s.status.busy = true := hs.busy_of_active hact
  have hclock : (s.respond Response.written).setWbusy.clock = (s.respond Response.written).setWbusy.complete c :=
    clock_completes hact hcyc.le
  rw [sameCycle_transactionFirst hb, transact_droppedWord ha ht hr hb, mapNext, hclock]
  refine ⟨_, rfl, ?_, ?_, ?_, ?_, fun hm => ?_⟩
  · simp [sameOperands]
  · simp
  · simp
  · simp
  · exact complete_result_toNat (s := (s.respond Response.written).setWbusy) (hs.active_width_pos hact) hm

/-- Ordered after the completing edge, the word is stored (20_memory.md R70; 60_exceptions.md R228). -/
theorem sameCycle_completionThenWord (v : Word) :
    ∃ t, sameCycle (Transaction.store a v) .clock s = .next t ∧ t.windowRead a = v ∧
      (∀ b : Offset, b ≠ 0x008#12 → target s.params.nwords b ≠ .operand r j →
        (∀ k, target s.params.nwords b ≠ .operand .result k) → t.windowRead b = s.windowRead b) ∧
      t.status.wbusy = s.status.wbusy ∧ t.status.busy = false ∧ t.status.done = true ∧
      (s.mod ≠ 0#2048 → t.result.toNat = s.expectedResult c) := by
  have hb : s.status.busy = true := hs.busy_of_active hact
  have hp : (s.complete c).params = s.params := complete_params s c
  have hwf : (s.complete c).params.Wf := hp ▸ hs.params
  have ht' : target (s.complete c).params.nwords a = .operand r j := hp ▸ ht
  rw [sameCycle_clockFirst hb, clock_completes hact hcyc.le]
  refine ⟨_, transact_storedWord ha ht' hr (by simp) v _, ?_, fun b hstatus hne hres => ?_, ?_, ?_, ?_, fun hm => ?_⟩
  · rw [respond_windowRead, windowRead_store_same hwf ht']
  · rw [respond_windowRead, windowRead_store_other hwf ht' (hp ▸ hne), complete_windowRead s c hstatus hres]
  · simp
  · simp
  · simp
  · rw [State.respond_result, setReg_result hr, complete_result_toNat (hs.active_width_pos hact) hm]

end WordInLastCycle

/-- Settles O58: before the edge the word is dropped, after it the core is idle and the word is stored. -/
theorem operandWriteRacesCompletion : Obligations.OperandWriteRacesCompletion := by
  intro s rest a v r j c hs hact hcyc ha ht hr
  refine ⟨fun h => ?_, fun h => ?_⟩ <;> rw [step_of_cycle h]
  · exact sameCycle_wordThenCompletion (hs.dropEvent h) hact hcyc ha ht hr v
  · have hstored := sameCycle_completionThenWord (hs.dropEvent h) hact hcyc ha ht hr v
    simp only [windowRead_schedule] at hstored
    exact hstored

end Sys2Proof.Machine

/-!
PROOFS of the statements about the encoding (30_encoding.md): the fields of a command word, the words that decode to a
command, and the writes that `LD` stands for.
-/

namespace Sys2Proof.Machine

/-! ### The fields of a command word -/

/-- A word is its three fields, one above the other (30_encoding.md R90). -/
theorem append_fields (v : Word) : rsvdField v ++ emodeField v ++ opField v = v := by
  rw [rsvdField, emodeField, opField, BitVec.extractLsb'_append_extractLsb'_eq_extractLsb' (by rfl),
    BitVec.extractLsb'_append_extractLsb'_eq_extractLsb' (by rfl)]
  exact BitVec.extractLsb'_eq_self

@[simp] theorem rsvdField_commandWord (emode : BitVec 2) (op : BitVec 4) : rsvdField (commandWord emode op) = 0#26 :=
  (BitVec.extractLsb'_append_eq_of_le (by decide)).trans BitVec.extractLsb'_append_eq_left

@[simp] theorem emodeField_commandWord (emode : BitVec 2) (op : BitVec 4) : emodeField (commandWord emode op) = emode :=
  (BitVec.extractLsb'_append_eq_of_le (by decide)).trans BitVec.extractLsb'_append_eq_right

@[simp] theorem opField_commandWord (emode : BitVec 2) (op : BitVec 4) : opField (commandWord emode op) = op :=
  BitVec.extractLsb'_append_eq_right

theorem commandWord_eq_iff {emode : BitVec 2} {op : BitVec 4} {v : Word} :
    commandWord emode op = v ↔ rsvdField v = 0#26 ∧ emodeField v = emode ∧ opField v = op := by
  constructor
  · rintro rfl
    simp
  · rintro ⟨hr, rfl, rfl⟩
    rw [commandWord, ← hr, append_fields]

theorem encode_eq_commandWord (i : Instr) : encode i = commandWord (emodeOf i).code (opOf i).code := by
  cases i <;> rfl

/-! ### What decodes to a command -/

/-- The decoder answers a command on that command's fields alone (30_encoding.md R91 to R93). -/
theorem decode_eq_command_iff {v : Word} {i : Instr} :
    decode v = .command i ↔ rsvdField v = 0#26 ∧ emodeField v = (emodeOf i).code ∧ opField v = (opOf i).code := by
  unfold decode
  split_ifs <;> cases i <;> simp_all [opOf, emodeOf, Op.code, EMode.code]

/-- Settles O3: a word with a command's fields is the command's word. -/
theorem decodeAgreesWithEncode : Obligations.DecodeAgreesWithEncode := by
  intro v i
  rw [decode_eq_command_iff, encode_eq_commandWord, commandWord_eq_iff]

/-- The legal field values are those of the four commands (30_encoding.md R93). -/
theorem legal_iff_exists_command {v : Word} : legal v = true ↔ ∃ i, decode v = .command i := by
  simp only [decode_eq_command_iff, legal, legalFields, Bool.and_eq_true, Bool.or_eq_true, beq_iff_eq]
  constructor
  · rintro ⟨hr, ⟨ho, he⟩ | ⟨ho, (he | he) | he⟩⟩
    exacts [⟨.modmul, hr, he, ho⟩, ⟨.modexp, hr, he, ho⟩, ⟨.modexpE64, hr, he, ho⟩, ⟨.modexpE32, hr, he, ho⟩]
  · rintro ⟨i, hr, he, ho⟩
    cases i <;> simp_all [opOf, emodeOf, Op.code, EMode.code]

theorem exists_encode_eq_iff {v : Word} :
    (∃ i, encode i = v) ↔ v = 0x00000001#32 ∨ v = 0x00000002#32 ∨ v = 0x00000012#32 ∨ v = 0x00000022#32 := by
  constructor
  · rintro ⟨i, rfl⟩
    cases i <;> decide
  · rintro (rfl | rfl | rfl | rfl)
    exacts [⟨.modmul, rfl⟩, ⟨.modexp, rfl⟩, ⟨.modexpE64, rfl⟩, ⟨.modexpE32, rfl⟩]

/-- A word that decodes to no command is illegal for a reason (30_encoding.md R96). -/
theorem exists_illegal_iff {d : Decoded} : (∃ why, d = .illegal why) ↔ ¬ ∃ i, d = .command i := by
  cases d <;> simp

/-- Settles O2: the legal words are those that decode to a command, and so the four commands' own. -/
theorem exactlyFourWordsAreLegal : Obligations.ExactlyFourWordsAreLegal := by
  intro v
  refine ⟨?_, legal_iff_exists_command, ?_⟩
  · rw [legal_iff_exists_command, ← exists_encode_eq_iff]
    exact exists_congr fun i => decodeAgreesWithEncode v i
  · rw [← Bool.not_eq_true, legal_iff_exists_command, exists_illegal_iff]

/-- Settles O1: the decoder run on each word. -/
theorem commandWordsDecode : Obligations.CommandWordsDecode := by
  unfold Obligations.CommandWordsDecode
  decide

/-! ### The pseudo-instruction LD -/

/-- Register contents `x` with word `j` replaced by that of `v`: one write of `LD` (30_encoding.md R97). -/
def copyWord (width : Nat) (v x : Operand) (j : Nat) : Operand := setWord width x j (wordOf width v j)

theorem getLsbD_copyWord (width : Nat) (v x : Operand) (j : Nat) {i : Nat} (hi : i < 2048) :
    (copyWord width v x j).getLsbD i =
      if wordShift width j ≤ i ∧ i < wordShift width j + 32 then v.getLsbD i else x.getLsbD i := by
  rw [copyWord, getLsbD_setWord _ _ _ _ _ hi]
  refine if_ctx_congr Iff.rfl (fun ⟨hlo, hhi⟩ => ?_) fun _ => rfl
  rw [getLsbD_wordOf _ _ _ _ (by omega), Nat.add_sub_cancel' hlo]

/-- A bit in one of the words copied is that of the source; any other bit is as before. -/
theorem getLsbD_foldl_copyWord (width : Nat) (v : Operand) {i : Nat} (hi : i < 2048) (js : List Nat) : ∀ x : Operand,
    (js.foldl (copyWord width v) x).getLsbD i =
      if ∃ j ∈ js, wordShift width j ≤ i ∧ i < wordShift width j + 32 then v.getLsbD i else x.getLsbD i := by
  induction js with
  | nil => simp
  | cons j js ih =>
    intro x
    rw [List.foldl_cons, ih, getLsbD_copyWord _ _ _ _ hi, ← ite_or]
    exact if_congr (by rw [List.exists_mem_cons_iff, or_comm]) rfl rfl

/-- Copying all `width/32` words copies the value (20_memory.md R63). -/
theorem foldl_copyWord_range {p : Params} {v x : Operand} (hp : p.Wf) (hv : v.toNat < 2 ^ p.width)
    (hx : x.toNat < 2 ^ p.width) : (List.range p.nwords).foldl (copyWord p.width v) x = v := by
  obtain ⟨h32, hlo, -⟩ := hp
  refine BitVec.eq_of_getLsbD_eq fun i hi => ?_
  rw [getLsbD_foldl_copyWord _ _ hi]
  split <;> rename_i hcovered
  · rfl
  · have hout : p.width ≤ i := by
      by_contra hin
      refine hcovered ⟨(p.width - 1 - i) / 32, List.mem_range.2 ?_, ?_, ?_⟩ <;>
        simp only [Params.nwords, wordShift] <;> omega
    have hfit : 2 ^ p.width ≤ 2 ^ i := Nat.pow_le_pow_right (by decide) hout
    rw [← BitVec.testBit_toNat, ← BitVec.testBit_toNat, Nat.testBit_lt_two_pow (hv.trans_le hfit),
      Nat.testBit_lt_two_pow (hx.trans_le hfit)]

/-- A register filled by the host: nothing else differs but the schedule and the response (20_memory.md R70). -/
def State.filled (s : State) (r : OperandReg) (x : Operand) (rest : List Event) : State :=
  { s.setReg r x with schedule := rest, rsp := some Response.written }

section Filled

variable (s : State) (r : OperandReg) (x y : Operand) (es rest : List Event)

@[simp] theorem State.filled_params : (s.filled r x rest).params = s.params := s.setReg_params r x
@[simp] theorem State.filled_status : (s.filled r x rest).status = s.status := s.setReg_status r x
@[simp] theorem State.filled_schedule : (s.filled r x rest).schedule = rest := rfl
@[simp] theorem State.filled_reg : (s.filled r x rest).reg r = x := by cases r <;> rfl
@[simp] theorem State.filled_filled : (s.filled r x es).filled r y rest = s.filled r y rest := by cases r <;> rfl

end Filled

/-- One write of `LD` to an idle core (20_memory.md R70). -/
theorem step_of_loadWord {s : State} {r : OperandReg} {v : Operand} {j : Nat} {rest : List Event} (hp : s.params.Wf)
    (hb : s.status.busy = false) (hr : r ≠ .result) (hj : j < s.params.nwords)
    (h : s.schedule = .txn (loadWord s.params.width r v j) :: rest) :
    step s = .next (s.filled r (copyWord s.params.width v (s.reg r) j) rest) := by
  obtain ⟨-, -, hhi, -⟩ := hp
  have hj64 : j < 64 := by rw [Params.nwords] at hj; omega
  have hoff : (wordOffset r j).toNat = r.base + 4 * j := toNat_ofNat_word r hj64
  have halign : (wordOffset r j).toNat % 4 = 0 := by
    rw [hoff]
    cases r <;> simp only [OperandReg.base] <;> omega
  have ht : target s.params.nwords (wordOffset r j) = .operand r j := by rw [target_of_word hoff hj64, if_pos hj]
  rw [step_of_txn h, loadWord, transact_storedWord (s := { s with schedule := rest }) halign ht hr hb, schedule_reg]
  cases r <;> rfl

/-- Successive writes of `LD` to an idle core, one at least: a step each. -/
theorem run_loadWords {r : OperandReg} (v : Operand) (hr : r ≠ .result) (js : List Nat) : ∀ (j : Nat) (s : State),
    s.params.Wf → s.status.busy = false → (∀ k ∈ j :: js, k < s.params.nwords) →
    s.schedule = (j :: js).map (fun k => .txn (loadWord s.params.width r v k)) →
    Host.Core.run core (j :: js).length s =
      .next (s.filled r ((j :: js).foldl (copyWord s.params.width v) (s.reg r)) []) := by
  induction js with
  | nil =>
    intro j s hp hb hjs h
    exact run_first 0 (step_of_loadWord hp hb hr (hjs j (by simp)) h)
  | cons k js ih =>
    intro j s hp hb hjs h
    rw [List.length_cons, run_first _ (step_of_loadWord hp hb hr (hjs j (by simp)) h)]
    refine (ih k _ (by simpa using hp) (by simpa using hb) (fun l hl => ?_) (by simp)).trans ?_
    · simpa using hjs l (List.mem_cons_of_mem j hl)
    · simp

/-- Settles O55: the writes copy every word of the value. -/
theorem loadFillsTheRegister : Obligations.LoadFillsTheRegister := by
  intro s r v hs hb hr hv h
  obtain ⟨j, js, hjs⟩ : ∃ j js, List.range s.params.nwords = j :: js := by
    refine List.exists_cons_of_ne_nil ?_
    obtain ⟨-, hlo, -⟩ := hs.params
    rw [ne_eq, List.range_eq_nil, Params.nwords]
    omega
  have hsched : s.schedule = (j :: js).map (fun k => .txn (loadWord s.params.width r v k)) := by
    rw [h, ← hjs]
    simp [scheduleOf, HostStmt.expand]
  have hrun := run_loadWords v hr js j s hs.params hb (by simp [← hjs]) hsched
  rw [← hjs, List.length_range, foldl_copyWord_range hs.params hv (hs.operands r)] at hrun
  exact hrun

end Sys2Proof.Machine

/-!
PROOFS of the statements about the life of a command (40_command_lifecycle.md): its issue and acceptance, what happens to
it in flight, and its completion.
-/

namespace Sys2Proof.Machine

/-! ### Issue and acceptance -/

theorem exec_busy {s : State} (h : s.status.busy = true) (i : Instr) : exec i s = .next s.setWbusy := by
  rw [exec_eq_issue, issue_busy h]

theorem exec_idle {s : State} (h : s.status.busy = false) (i : Instr) :
    exec i s = .next (s.accept (opOf i) (emodeOf i)) := by
  rw [exec_eq_issue, issue_idle h]

/-- A word that decodes to a command is issued as that command, the core busy or idle (40_command_lifecycle.md R110). -/
theorem issueCommand_eq_exec {v : Word} {i : Instr} (hd : decode v = .command i) (s : State) :
    issueCommand v s = exec i s := by
  cases hb : s.status.busy with
  | true => rw [issueCommand_busy hb, exec_busy hb]
  | false => rw [issueCommand_command hb hd, exec_idle hb]

/-- A write to CMD issues its word (40_command_lifecycle.md R110). -/
theorem step_of_command_write {s : State} {v : Word} {rest : List Event}
    (h : s.schedule = .txn (commandWrite v) :: rest) :
    step s = issueCommand v { s with schedule := rest, rsp := some Response.written } :=
  step_of_store rfl h

theorem decode_of_decodeTableWord {w : Nat} {i : Instr} (h : decodeTableWord 32 w = some i) :
    decode (tableWord 32 w) = .command i := by
  rw [decodeTableWord, if_neg (by decide)] at h
  cases hd : decode (tableWord 32 w) with
  | command j => simpa [hd, Decoded.toInstr?] using h
  | illegal why => simp [hd, Decoded.toInstr?] at h

/-- Settles O4: the write to CMD issues the word, and the word is the command's. -/
theorem stepRunsTheCommandWritten : Obligations.StepRunsTheCommandWritten := by
  refine ⟨fun s rest w i h hd => ?_, fun s w i hd => ?_⟩
  · exact (step_of_command_write h).trans (issueCommand_eq_exec hd _)
  · exact (step_of_command_write rfl).trans (issueCommand_eq_exec (decode_of_decodeTableWord hd) _)

/-- Settles O5: an idle core accepts, and acceptance is `State.accept`. -/
theorem modmulIsAccepted : Obligations.ModmulIsAccepted :=
  fun _ hb => exec_idle hb .modmul

/-- Settles O6: as for MODMUL, with the engine's start. -/
theorem modexpIsAccepted : Obligations.ModexpIsAccepted :=
  fun _ hb => ⟨exec_idle hb .modexp, exec_idle hb .modexpE64, exec_idle hb .modexpE32⟩

/-- Settles O7: a busy core records WBUSY before it looks at the word. -/
theorem commandWhileBusyIsDropped : Obligations.CommandWhileBusyIsDropped := by
  refine ⟨fun i s hb => exec_busy hb i, fun s rest w hb h => ?_⟩
  rw [step_of_command_write h, issueCommand_busy (by exact hb)]
  rfl

/-! ### What issue leaves unchanged -/

theorem reg_of_sameOperands {s t : State} (h : sameOperands s t) (hr : t.result = s.result) (q : OperandReg) :
    t.reg q = s.reg q := by
  obtain ⟨ha, hb, hm, he⟩ := h
  cases q with
  | opa => exact ha
  | opb => exact hb
  | mod => exact hm
  | exp => exact he
  | result => exact hr

/-- While the registers and IE stay, only STATUS can read differently. -/
theorem windowRead_of_sameOperands {s t : State} {a : Offset} (hp : t.params = s.params) (hie : t.ie = s.ie)
    (hop : sameOperands s t) (hr : t.result = s.result) (ha : a ≠ 0x008#12) : t.windowRead a = s.windowRead a :=
  windowRead_congr hp hie (absurd · ha) fun q _ _ => by rw [reg_of_sameOperands hop hr q]

/-- Settles O8: the command is dropped by a busy core and accepted by an idle one. -/
theorem commandsLeaveTheRestUnchanged : Obligations.CommandsLeaveTheRestUnchanged := by
  intro i s t h
  cases hb : s.status.busy with
  | true =>
    obtain rfl : s.setWbusy = t := by simpa [exec_busy hb] using h
    have hop : sameOperands s s.setWbusy := ⟨rfl, rfl, rfl, rfl⟩
    refine ⟨by simp [hop], fun _ => ⟨rfl, rfl⟩, nofun, fun _ => by simp [hb], fun a ha => ?_⟩
    exact windowRead_of_sameOperands rfl rfl hop rfl ha
  | false =>
    obtain rfl : s.accept (opOf i) (emodeOf i) = t := by simpa [exec_idle hb] using h
    have hop : sameOperands s (s.accept (opOf i) (emodeOf i)) := by simp [sameOperands]
    refine ⟨by simp [hop], ?_, fun _ => by simp, nofun, fun a ha => ?_⟩
    · rintro rfl
      exact ⟨rfl, rfl⟩
    · exact windowRead_of_sameOperands (by simp) (by simp) hop (by simp) ha

/-! ### Completion -/

theorem eqBit_zero (v : Operand) : eqBit v.toNat 0 = decide (v = 0#2048) := by
  rw [eqBit, Bool.eq_iff_iff, beq_iff_eq, decide_eq_true_iff, BitVec.toNat_eq, BitVec.toNat_zero]

theorem popEvent_windowRead (s : State) (a : Offset) : s.popEvent.windowRead a = s.windowRead a :=
  windowRead_schedule s s.schedule.tail a

/-- Settles O9: at CYC = 1 the clock edge is a completion. -/
theorem completionWritesResultAndStatus : Obligations.CompletionWritesResultAndStatus := by
  intro s c hs hev hact hcyc hm
  have hstep : step s = .next (s.popEvent.complete c) := by
    rw [step, hev, applyEvent, clock_completes (s := s.popEvent) hact hcyc.le]
  refine ⟨_, hstep, complete_result_toNat (s := s.popEvent) (hs.active_width_pos hact) hm, ?_, rfl, rfl, rfl, rfl,
    ?_, ?_, ?_, ?_, ?_, fun a ha hres => ?_⟩
  · simp [eqBit_zero, hm, Status.completed]
  · simp
  · simp [sameOperands]
  · simp
  · simp
  · simp
  · rw [complete_windowRead s.popEvent c ha hres, popEvent_windowRead]

/-! ### A command in flight -/

theorem stillInFlight.trans {s t u : State} {c : Active} (h : stillInFlight s t c) (k : stillInFlight t u c) :
    stillInFlight s u c := by
  obtain ⟨-, -, ⟨ha, hb, hm, he⟩, hr⟩ := h
  obtain ⟨hact, hbusy, ⟨ka, kb, km, ke⟩, kr⟩ := k
  exact ⟨hact, hbusy, ⟨ka.trans ha, kb.trans hb, km.trans hm, ke.trans he⟩, kr.trans hr⟩

theorem stillInFlight.busy {s t : State} {c : Active} : stillInFlight s t c → t.status.busy = true
  | ⟨_, hbusy, _⟩ => hbusy

theorem stillInFlight.active {s t : State} {c : Active} : stillInFlight s t c → t.active = some c
  | ⟨hact, _⟩ => hact

theorem stillInFlight.refl {s : State} {c : Active} (hb : s.status.busy = true) (ha : s.active = some c) :
    stillInFlight s s c :=
  ⟨ha, hb, ⟨rfl, rfl, rfl, rfl⟩, rfl⟩

/-- A command in flight has a cycle of its latency left (40_command_lifecycle.md R112). -/
theorem State.Inv.one_le_cyc {s : State} {c : Active} (h : s.Inv) (ha : s.active = some c) : 1 ≤ s.cyc := by
  obtain ⟨m, k⟩ := h.inFlight c ha
  exact k.cycPos

/-- The value of a command depends on the operands alone (40_command_lifecycle.md R119). -/
theorem expectedResult_of_sameOperands {s t : State} (h : sameOperands s t) (c : Active) :
    t.expectedResult c = s.expectedResult c := by
  obtain ⟨ha, hb, hm, he⟩ := h
  simp only [State.expectedResult, ha, hb, hm, he]

/-- No transaction disturbs a command in flight (40_command_lifecycle.md R117). -/
theorem Transacted.stillInFlight {tr : Transaction} {now : SetNow} {s t : State} {c : Active}
    (h : Transacted tr now s t) (hb : s.status.busy = true) (ha : s.active = some c) :
    stillInFlight s t c ∧ t.cyc = s.cyc := by
  obtain ⟨hop, hact, -, hcyc, -, -, hbusy, -, -⟩ := h.busy hb
  exact ⟨⟨hact.trans ha, hbusy, hop, h.result⟩, hcyc⟩

theorem SameOutside.stillInFlight {s t : State} {c : Active} (h : SameOutside s t) (hb : s.status.busy = true)
    (ha : s.active = some c) : stillInFlight s t c :=
  ⟨h.active.trans ha, h.status ▸ hb, ⟨h.opa, h.opb, h.mod, h.exp⟩, h.result⟩

/-- Before the last cycle of its latency a command in flight counts down (40_command_lifecycle.md R112). -/
theorem clock_stillInFlight {s : State} {c : Active} (hb : s.status.busy = true) (ha : s.active = some c)
    (hc : 1 < s.cyc) : stillInFlight s s.clock c ∧ s.clock.cyc + 1 = s.cyc := by
  rw [clock_counts ha hc]
  exact ⟨⟨ha, hb, ⟨rfl, rfl, rfl, rfl⟩, rfl⟩, Nat.sub_add_cancel hc.le⟩

/-- Without a clock edge a command in flight stays as it is (40_command_lifecycle.md R112). -/
theorem Happened.stays {s t : State} {e : Event} {c : Active} (h : Happened s e t) (hb : s.status.busy = true)
    (ha : s.active = some c) (hr : e ≠ .reset) (he : e.hasEdge = false) : stillInFlight s t c ∧ t.cyc = s.cyc := by
  cases h with
  | txn k => exact k.stillInFlight hb ha
  | work => exact ⟨(work_outside s).stillInFlight hb ha, (work_outside s).cyc⟩
  | reset => exact absurd rfl hr
  | tick | cycleIdle | cycleBefore | cycleAfter => exact absurd he nofun

/-- A clock edge before the last cycle lowers CYC by one, before or after a transaction (20_memory.md R76). -/
theorem Happened.counts {s t : State} {e : Event} {c : Active} (h : Happened s e t) (hb : s.status.busy = true)
    (ha : s.active = some c) (he : e.hasEdge = true) (hc : 1 < s.cyc) :
    stillInFlight s t c ∧ t.cyc + 1 = s.cyc := by
  cases h with
  | tick => exact clock_stillInFlight hb ha hc
  | cycleIdle hb' => simp [hb] at hb'
  | cycleBefore _ k =>
    obtain ⟨hk, hcyc⟩ := k.stillInFlight hb ha
    obtain ⟨hclk, hdown⟩ := clock_stillInFlight hk.busy hk.active (hcyc ▸ hc)
    exact ⟨hk.trans hclk, hdown.trans hcyc⟩
  | cycleAfter _ k =>
    obtain ⟨hclk, hdown⟩ := clock_stillInFlight hb ha hc
    obtain ⟨hk, hcyc⟩ := k.stillInFlight hclk.busy hclk.active
    exact ⟨hclk.trans hk, hcyc ▸ hdown⟩
  | txn | work | reset => exact absurd he nofun

/-! ### The last clock edge of a command -/

/-- After `t` the command that was in flight in `s` is over, and STATUS says so (40_command_lifecycle.md R113). -/
def completedIn (s t : State) : Prop :=
  t.active = none ∧ t.status.busy = false ∧ t.status.done = true ∧ t.status.mz = decide (s.mod = 0#2048) ∧
    t.status.lastop = s.status.lastop ∧ t.status.lastem = s.status.lastem

theorem complete_completedIn (s : State) (c : Active) : completedIn s (s.complete c) := by
  simp [completedIn, eqBit_zero]

/-- A transaction that finds the core idle is an accepted command, or it leaves the core idle; where DONE and MZ are set in
the same cycle it does not clear them (60_exceptions.md R227b). -/
theorem Transacted.accepts_or_keeps {tr : Transaction} {now : SetNow} {s t : State} (h : Transacted tr now s t)
    (hb : s.status.busy = false) (hd : s.status.done = now.done) (hm : s.status.mz = now.mz) :
    (∃ i, tr.commands i ∧ t = (s.respond Response.written).accept (opOf i) (emodeOf i)) ∨
      (t.active = s.active ∧ t.status.busy = false ∧ t.status.done = s.status.done ∧ t.status.mz = s.status.mz ∧
        t.status.lastop = s.status.lastop ∧ t.status.lastem = s.status.lastem) := by
  cases h with
  | accepted i hok hw ha _ hdec => exact .inl ⟨i, ⟨hok, hw, ha, hdec⟩, rfl⟩
  | status => right; simp +contextual [hb, hd, hm]
  | droppedCommand _ _ _ hb' => simp [hb] at hb'
  | droppedWord _ _ _ _ _ _ hb' => simp [hb] at hb'
  | _ => right; simp [hb]

theorem setByClock_of_completion {s : State} (hb : s.status.busy = true) (hc : s.clock.status.busy = false) :
    s.setByClock = { done := true, mz := s.clock.status.mz } := by
  simp [State.setByClock, hb, hc]

/-- The clock edge at CYC = 1 writes the command's value and completes it; only a command accepted after it in the same
cycle keeps the core busy (60_exceptions.md R227c, R228). -/
theorem Happened.completes {s t : State} {e : Event} {c : Active} (h : Happened s e t) (hs : s.Inv)
    (ha : s.active = some c) (he : e.hasEdge = true) (hc : s.cyc = 1) :
    (s.mod ≠ 0#2048 → t.result.toNat = s.expectedResult c) ∧
      (completedIn s t ∨
        ∃ tr i, e = .cycle tr .clock ∧ tr.commands i ∧
          t.active = some { op := opOf i, width := (emodeOf i).width s.params } ∧
          t.status.busy = true ∧ t.status.done = false ∧ t.status.mz = false) := by
  have hb : s.status.busy = true := hs.busy_of_active ha
  have hw : 0 < c.width := hs.active_width_pos ha
  have hclk : s.clock = s.complete c := clock_completes ha hc.le
  cases h with
  | tick =>
    rw [hclk]
    exact ⟨complete_result_toNat hw, .inl (complete_completedIn s c)⟩
  | cycleIdle hb' => simp [hb] at hb'
  | @cycleBefore tr u _ k =>
    obtain ⟨hop, hact, -, hcyc, -, -, -, hlo, hle⟩ := k.busy hb
    have hmod : u.mod = s.mod := by
      obtain ⟨-, -, e, -⟩ := hop
      exact e
    rw [clock_completes (hact.trans ha) (hcyc.trans hc).le, ← expectedResult_of_sameOperands hop, ← hmod]
    refine ⟨complete_result_toNat hw, .inl ?_⟩
    simpa [completedIn, hmod, hlo, hle] using complete_completedIn u c
  | cycleAfter _ k =>
    rw [setByClock_of_completion hb (by simp [hclk]), hclk] at k
    rw [k.result]
    refine ⟨complete_result_toNat hw, ?_⟩
    obtain ⟨hact, hbusy, hdone, hmz, hlo, hle⟩ := complete_completedIn s c
    rcases k.accepts_or_keeps hbusy hdone rfl with ⟨i, hi, rfl⟩ | ⟨kact, kbusy, kdone, kmz, klo, kle⟩
    · exact .inr ⟨_, i, rfl, hi, by simp, by simp, by simp, by simp⟩
    · exact .inl ⟨kact.trans hact, kbusy, kdone.trans hdone, kmz.trans hmz, klo.trans hlo, kle.trans hle⟩
  | txn | work | reset => exact absurd he nofun

/-- Settles O13: the event has no clock edge, or one that counts, or the last one. -/
theorem commandInFlightUsesOperandsOfAcceptance : Obligations.CommandInFlightUsesOperandsOfAcceptance := by
  intro s t c hs ha h hr
  have hb : s.popEvent.status.busy = true := hs.busy_of_active ha
  have k := step_cases h
  exact ⟨k.stays hb ha hr, k.counts hb ha, k.completes hs.popEvent ha⟩

/-! ### BUSY ends, and only in DONE -/

/-- Settles O15: a completing step leaves DONE set or the next command in flight; every other step leaves BUSY set. -/
theorem busyEndsOnlyInDone : Obligations.BusyEndsOnlyInDone := by
  intro s t hs hb hr h
  obtain ⟨c, ha⟩ := Option.ne_none_iff_exists'.mp (hs.busyActive.mp hb)
  obtain ⟨stays, counts, completes⟩ := commandInFlightUsesOperandsOfAcceptance s t c hs ha h hr
  cases he : (nextEvent s.schedule).hasEdge with
  | false =>
    obtain ⟨hst, -⟩ := stays he
    exact .inl hst.busy
  | true =>
    rcases (hs.one_le_cyc ha).lt_or_eq with hc | hc
    · obtain ⟨hst, -⟩ := counts he hc
      exact .inl hst.busy
    · obtain ⟨-, ⟨-, -, hdone, -⟩ | ⟨_, _, -, -, -, hbusy, -⟩⟩ := completes he hc.symm
      · exact .inr hdone
      · exact .inl hbusy

/-! ### A command in flight reaches its completion -/

theorem Transacted.schedule {tr : Transaction} {now : SetNow} {s t : State} (h : Transacted tr now s t) :
    t.schedule = s.schedule := by
  obtain ⟨-, -, hsched, -⟩ := h.frame
  exact hsched

/-- What happens in a step leaves the events after it scheduled. -/
theorem Happened.schedule {s t : State} {e : Event} (h : Happened s e t) : t.schedule = s.schedule := by
  cases h with
  | txn k => exact k.schedule
  | tick => exact clock_schedule s
  | cycleIdle _ k => exact k.schedule
  | cycleBefore _ k => exact (clock_schedule _).trans k.schedule
  | cycleAfter _ k => exact k.schedule.trans (clock_schedule s)
  | work => exact (work_outside s).schedule
  | reset => rfl

/-- An event without a clock edge is one of the schedule's: the host is not silent. -/
theorem nextEvent_mem_of_noEdge {es : List Event} (h : (nextEvent es).hasEdge = false) : nextEvent es ∈ es := by
  cases es with
  | nil => simp [nextEvent, Event.hasEdge] at h
  | cons e es => exact List.mem_cons_self

/-- A step that is not the completing one takes an event of the schedule or a cycle of the latency away
(40_command_lifecycle.md R116). -/
theorem step_approaches_completion {s : State} {c : Active} (hs : s.Inv) (ha : s.active = some c)
    (hr : Event.reset ∉ s.schedule) (hn : ¬ (s.cyc = 1 ∧ (nextEvent s.schedule).hasEdge = true)) :
    ∃ t, step s = .next t ∧ t.Inv ∧ stillInFlight s t c ∧ t.schedule = s.schedule.tail ∧
      t.schedule.length + t.cyc < s.schedule.length + s.cyc := by
  obtain ⟨t, h, k⟩ := applyEvent_cases (nextEvent s.schedule) s.popEvent
  have hb : s.popEvent.status.busy = true := hs.busy_of_active ha
  have hsched : t.schedule = s.schedule.tail := k.schedule
  refine ⟨t, h, k.inv hs.popEvent, ?_⟩
  rw [hsched, List.length_tail]
  cases he : (nextEvent s.schedule).hasEdge with
  | false =>
    have hmem := nextEvent_mem_of_noEdge he
    obtain ⟨hk, hcyc⟩ := k.stays (c := c) hb ha (fun e => hr (e ▸ hmem)) he
    have hcyc : t.cyc = s.cyc := hcyc
    have hlen := List.length_pos_of_mem hmem
    exact ⟨hk, rfl, by omega⟩
  | true =>
    have hc : 1 < s.cyc := (hs.one_le_cyc ha).lt_of_ne fun e => hn ⟨e.symm, he⟩
    obtain ⟨hk, hcyc⟩ := k.counts (c := c) hb ha he hc
    have hcyc : t.cyc + 1 = s.cyc := hcyc
    exact ⟨hk, rfl, by omega⟩

/-- Settles O14, by induction on the events and the cycles that are left. -/
theorem commandInFlightCompletes : Obligations.CommandInFlightCompletes := by
  intro s c hs ha hr
  induction hn : s.schedule.length + s.cyc using Nat.strong_induction_on generalizing s with
  | _ n ih =>
    by_cases hlast : s.cyc = 1 ∧ (nextEvent s.schedule).hasEdge = true
    · exact ⟨0, s, Nat.zero_le _, run_zero s, hs, .refl (hs.busy_of_active ha) ha, hlast⟩
    · obtain ⟨t, hstep, ht, hst, hsched, hlt⟩ := step_approaches_completion hs ha hr hlast
      have hr' : Event.reset ∉ t.schedule := hsched ▸ fun h => hr (List.mem_of_mem_tail h)
      obtain ⟨k, u, hk, hrun, hu, htu, hlast⟩ := ih _ (hn ▸ hlt) t ht hst.active hr' rfl
      exact ⟨k + 1, u, by omega, (run_first k hstep).trans hrun, hu, hst.trans htu, hlast⟩

/-! ### Internal operations -/

theorem SameOutside.irq {s t : State} (h : SameOutside s t) : t.irq = s.irq := by
  rw [State.irq, State.irq, h.ie, h.status]

theorem step_of_work {s : State} {rest : List Event} (h : s.schedule = .work :: rest) :
    step s = .next (State.work { s with schedule := rest }) := by
  simp only [step, h, nextEvent, applyEvent, State.popEvent, List.tail_cons]

/-- Settles O21: an internal operation changes nothing outside the unit. -/
theorem internalWorkIsInvisible : Obligations.InternalWorkIsInvisible := by
  intro s rest h
  have k := work_outside { s with schedule := rest }
  refine ⟨_, step_of_work h, fun a => ?_, k.rsp, k.irq, k.status, k.cyc, k.active, k.params, k.schedule⟩
  rw [k.windowRead, windowRead_schedule]

end Sys2Proof.Machine

/-!
PROOFS of the statements about the fixed-width integer primitives (41_bigint_primitives.md): carry and borrow, the
branch-free select and the comparison, and the big-endian byte buffer.
-/

namespace Sys2Proof.Machine

/-! ### Carry and borrow -/

/-- The carry is the sum's one bit above the width (41_bigint_primitives.md R133). -/
theorem addWithCarry_carry {w a b : Nat} (cin : Bool) (ha : a < 2 ^ w) (hb : b < 2 ^ w) :
    (addWithCarry w a b cin).2.toNat = (a + b + cin.toNat) / 2 ^ w := by
  have hcin := cin.toNat_le
  by_cases h : 2 ^ w ≤ a + b + cin.toNat
  · rw [Nat.div_eq_of_lt_le (k := 1) (by omega) (by omega)]
    simp [addWithCarry, h]
  · rw [Nat.div_eq_of_lt (by omega)]
    simp [addWithCarry, h]

/-- The difference wraps modulo `2^n` (41_bigint_primitives.md R134). -/
theorem subWithBorrow_difference (n a b : Nat) (bin : Bool) :
    ((subWithBorrow n a b bin).1 : Int) = ((a : Int) - b - bin.toNat) % 2 ^ n := by
  have hsub : (b + bin.toNat) % 2 ^ n ≤ a + 2 ^ n := (Nat.mod_lt _ (by positivity)).le.trans (Nat.le_add_left _ _)
  simp only [subWithBorrow, Nat.cast_sub hsub, Nat.cast_add, Int.natCast_emod, Nat.cast_pow, Nat.cast_ofNat,
    Int.sub_emod_emod, sub_sub, add_sub_right_comm, Int.add_emod_right]

/-- A subtraction borrows exactly when it goes below 0 (41_bigint_primitives.md R134). -/
theorem subWithBorrow_borrow (n a b : Nat) (bin : Bool) :
    (subWithBorrow n a b bin).2 = true ↔ a < b + bin.toNat :=
  decide_eq_true_iff

/-- Settles O23: sum and borrow are exact by definition, carry and difference by arithmetic. -/
theorem carryAndBorrowAreExact : Obligations.CarryAndBorrowAreExact :=
  ⟨fun _ _ _ cin ha hb => ⟨rfl, addWithCarry_carry cin ha hb⟩,
    fun n a b bin _ _ => ⟨subWithBorrow_difference n a b bin, subWithBorrow_borrow n a b bin⟩⟩

/-! ### Select and comparison -/

/-- The mask of a flag keeps a value of its width, or clears it (41_bigint_primitives.md R138). -/
theorem and_selectMask {w x : Nat} (h : x < 2 ^ w) (f : Bool) : x &&& selectMask w f = if f then x else 0 := by
  cases f with
  | false => exact Nat.and_zero x
  | true => exact (Nat.and_two_pow_sub_one_eq_mod x w).trans (Nat.mod_eq_of_lt h)

theorem selectMasked_eq_ite {w t e : Nat} (ht : t < 2 ^ w) (he : e < 2 ^ w) (f : Bool) :
    selectMasked w f t e = if f then t else e := by
  rw [selectMasked, and_selectMask ht, and_selectMask he]
  cases f with
  | false => exact Nat.zero_or e
  | true => exact Nat.or_zero t

/-- No borrow of `r - m` is `m ≤ r` (41_bigint_primitives.md R139). -/
theorem geBit_iff (n r m : Nat) : geBit n r m = true ↔ m ≤ r := by
  rw [geBit, Bool.not_eq_true', ← Bool.not_eq_true, subWithBorrow_borrow, not_lt]
  rfl

/-- Settles O24: one of the two masked values is 0, and `ge` is the negated borrow. -/
theorem maskedSelectIsSelect : Obligations.MaskedSelectIsSelect :=
  ⟨fun _ _ _ f ht he => selectMasked_eq_ite ht he f, fun n r m _ _ => geBit_iff n r m⟩

/-! ### The big-endian byte buffer -/

theorem fromBigEndianBytes_append_byte (bytes : List Byte) (b : Byte) :
    fromBigEndianBytes (bytes ++ [b]) = fromBigEndianBytes bytes * 256 + b.toNat := by
  simp [fromBigEndianBytes]

/-- The first `k` bytes of the buffer of a value give its high `8k` bits (41_bigint_primitives.md R132, R141). -/
theorem fromBigEndianBytes_leading {w v : Nat} (hv : v < 2 ^ w) (k : Nat) (hk : 8 * k ≤ w) :
    fromBigEndianBytes ((List.range k).map (bigEndianByte w v)) = v / 2 ^ (w - 8 * k) := by
  induction k with
  | zero => exact (Nat.div_eq_of_lt hv).symm
  | succ k ih =>
    have hhigh : v / 2 ^ (w - 8 * k) = v / 2 ^ (w - 8 - 8 * k) / 256 := by
      rw [Nat.div_div_eq_div_mul, ← Nat.pow_add 2 _ 8, show w - 8 - 8 * k + 8 = w - 8 * k by omega]
    rw [List.range_succ, List.map_append, List.map_singleton, fromBigEndianBytes_append_byte, ih (by omega), hhigh,
      show w - 8 * (k + 1) = w - 8 - 8 * k by omega]
    exact Nat.div_add_mod' _ 256

/-- Settles O34: the whole buffer is its leading `w / 8` bytes; a word of the window reads as written. -/
theorem bigEndianBytesRoundTrip : Obligations.BigEndianBytesRoundTrip := by
  refine ⟨fun w v h8 hv => ⟨by simp [toBigEndianBytes], ?_⟩, fun p v j x hp _ => ?_⟩
  · have hw : w - 8 * (w / 8) = 0 := by omega
    rw [toBigEndianBytes, fromBigEndianBytes_leading hv _ (by omega), hw, pow_zero, Nat.div_one]
  · obtain ⟨-, hlo, hhi, -⟩ := hp
    exact wordOf_setWord_same _ _ _ _ hhi (by omega)

end Sys2Proof.Machine

/-!
PROOFS of the statements about the modular multiplier (42_modular_multiplier.md): control and timing do not depend on
operand data, a zero modulus, the runs of the four commands to their results, the reference long division, and residues.
-/

namespace Sys2Proof.Machine

/-! ### Control does not depend on operand data -/

/-- Both outcomes are next states, and these agree on everything but operand data. -/
inductive SameControlNext : Host.Outcome State Fault Refusal → Host.Outcome State Fault Refusal → Prop where
  | next {t t' : State} (h : SameControl t t') : SameControlNext (.next t) (.next t')

theorem SameControlNext.map {f : State → State}
    (hf : ∀ {s s' : State}, SameControl s s' → SameControl (f s) (f s'))
    {o o' : Host.Outcome State Fault Refusal} : SameControlNext o o' → SameControlNext (mapNext f o) (mapNext f o')
  | .next h => .next (hf h)

theorem SameControl.irq {s s' : State} (h : SameControl s s') : s'.irq = s.irq := by
  rw [State.irq, State.irq, h.ie, h.done, h.ill, h.wbusy]

section

variable {s s' : State} (h : SameControl s s')

include h

theorem SameControl.popEvent : SameControl s.popEvent s'.popEvent :=
  { h with schedule := congrArg List.tail h.schedule }

/-- The data of a response is operand data; its error bit is not. -/
theorem SameControl.respond {r r' : Response} (hr : r'.err = r.err) : SameControl (s.respond r) (s'.respond r') :=
  { h with response := congrArg some hr }

theorem SameControl.setIll : SameControl s.setIll s'.setIll := { h with ill := rfl }

theorem SameControl.setWbusy : SameControl s.setWbusy s'.setWbusy := { h with wbusy := rfl }

theorem SameControl.setReg (r : OperandReg) (v v' : Operand) : SameControl (s.setReg r v) (s'.setReg r v') := by
  cases r <;> exact { h with }

theorem SameControl.setIe (b : Bool) : SameControl { s with ie := b } { s' with ie := b } := { h with ie := rfl }

/-- No flag but MZ takes MZ's value in a write-one-to-clear (10_state.md R30). -/
theorem SameControl.w1c (v : Word) {now now' : SetNow} (hd : now'.done = now.done) :
    SameControl { s with status := s.status.w1c v now } { s' with status := s'.status.w1c v now' } :=
  { h with
    done := by simp [hd, h.done]
    ill := by simp [h.ill]
    wbusy := by simp [h.wbusy] }

/-- Acceptance sets the latency of the command and the engine's counters from the parameters (40_command_lifecycle.md
R118). -/
theorem SameControl.accept (o : Op) (m : EMode) : SameControl (s.accept o m) (s'.accept o m) := by
  cases o <;>
    exact { h with
      busy := rfl
      done := rfl
      lastop := rfl
      lastem := rfl
      phase := rfl
      cyc := by simp [h.params]
      iter := by simp [h.params, h.iter]
      active := by simp [h.params] }

theorem SameControl.squareStep : SameControl s.squareStep s'.squareStep := { h with phase := rfl }

theorem SameControl.multiplyStep (i : Nat) : SameControl (s.multiplyStep i) (s'.multiplyStep i) :=
  { h with phase := rfl, iter := rfl }

/-- Which internal operation comes next, PHASE and ITER say (44_square_and_multiply_engine.md R207). -/
theorem SameControl.work : SameControl s.work s'.work := by
  unfold State.work
  rw [h.phase, h.iter]
  split
  · exact h
  · exact h
  · exact h
  · exact h.squareStep
  · exact h
  · exact h.multiplyStep _

theorem SameControl.complete (c : Active) : SameControl (s.complete c) (s'.complete c) := by
  constructor <;> simp [h.params, h.ill, h.wbusy, h.lastop, h.lastem, h.ie, h.response, h.schedule]

/-- A clock edge counts or completes by CYC and ACTIVE alone (42_modular_multiplier.md R154). -/
theorem SameControl.clock : SameControl s.clock s'.clock := by
  rcases clock_cases s with ⟨ha, e⟩ | ⟨c, ha, ⟨hc, e⟩ | ⟨hc, e⟩⟩
  · rwa [e, clock_idle (h.active.trans ha)]
  · rw [e, clock_counts (h.active.trans ha) (h.cyc ▸ hc)]
    exact { h with cyc := congrArg (· - 1) h.cyc }
  · rw [e, clock_completes (h.active.trans ha) (h.cyc ▸ hc)]
    exact h.complete c

theorem SameControl.applyReset : SameControl s.applyReset s'.applyReset := by
  constructor <;> simp [h.params, h.schedule]

theorem SameControl.issue (o : Op) (m : EMode) : SameControl (s.issue o m) (s'.issue o m) := by
  unfold State.issue
  rw [h.busy]
  split
  · exact h.setWbusy
  · exact h.accept o m

theorem SameControl.operandWrite (r : OperandReg) (j : Nat) (v : Word) :
    SameControl (s.operandWrite r j v) (s'.operandWrite r j v) := by
  unfold State.operandWrite
  rw [h.busy]
  split
  · exact h.setWbusy
  · exact h.setReg r _ _

theorem SameControl.issueCommand (v : Word) : SameControlNext (issueCommand v s) (issueCommand v s') := by
  unfold Machine.issueCommand
  rw [h.busy]
  split
  · exact .next h.setWbusy
  · cases decode v with
    | illegal why => exact .next h.setIll
    | command i =>
      simp only [exec_eq_issue]
      exact .next (h.issue _ _)

theorem SameControl.hostWrite (a : Offset) (v : Word) {now now' : SetNow} (hd : now'.done = now.done) :
    SameControlNext (hostWrite a v now s) (hostWrite a v now' s') := by
  have ht : target s'.params.nwords a = target s.params.nwords a := by rw [h.params]
  unfold Machine.hostWrite
  rw [ht]
  split
  · exact .next h
  · exact h.issueCommand v
  · exact .next (h.w1c v hd)
  · exact .next (h.setIe _)
  · exact .next h
  · exact .next (h.operandWrite _ _ v)
  · exact .next h

theorem SameControl.transact (tr : Transaction) {now now' : SetNow} (hd : now'.done = now.done) :
    SameControlNext (transact tr now s) (transact tr now' s') := by
  unfold Machine.transact
  split
  · exact .next (h.respond rfl)
  · split
    · exact (h.respond rfl).hostWrite _ _ hd
    · exact .next (h.respond rfl)

theorem SameControl.setByClock_done : s'.setByClock.done = s.setByClock.done := by
  simp only [State.setByClock, h.busy, h.clock.busy]

theorem SameControl.sameCycle (tr : Transaction) (first : First) :
    SameControlNext (sameCycle tr first s) (sameCycle tr first s') := by
  unfold Machine.sameCycle
  rw [h.busy]
  split
  · cases first with
    | transaction => exact (h.transact tr rfl).map SameControl.clock
    | clock => exact h.clock.transact tr h.setByClock_done
  · exact h.transact tr rfl

theorem SameControl.applyEvent (e : Event) : SameControlNext (applyEvent e s) (applyEvent e s') := by
  cases e with
  | txn tr => exact h.transact tr rfl
  | tick => exact .next h.clock
  | cycle tr first => exact h.sameCycle tr first
  | work => exact .next h.work
  | reset => exact .next h.applyReset

theorem SameControl.step : SameControlNext (step s) (step s') := by
  unfold Machine.step
  rw [h.schedule]
  exact h.popEvent.applyEvent _

end

/-- Settles O22: every operation of a step takes the same branch in both states, and `irq` is made of control alone. -/
theorem timingIsIndependentOfOperands : Obligations.TimingIsIndependentOfOperands := by
  intro s s' t t' h ht ht'
  have k := h.step
  rw [ht, ht'] at k
  cases k with
  | next k => exact ⟨k, k.irq⟩

/-! ### A zero modulus -/

theorem modMul_zero (a b x : Nat) : modMul a b 0 x = x := if_pos rfl

theorem modMul_of_ne_zero {m : Nat} (hm : m ≠ 0) (a b x : Nat) : modMul a b m x = a * b % m := if_neg hm

theorem select_self (f : Bool) (x : Nat) : select f x x = x := ite_self x

/-- Every iteration of the loop selects between two free values that are the same one (44_square_and_multiply_engine.md
R197). -/
theorem modExpLoop_zero (base e x n : Nat) : ∀ acc : Nat, modExpLoop base e 0 x (n + 1) acc = x := by
  induction n with
  | zero =>
    intro acc
    simp only [modExpLoop, modMul_zero, select_self]
  | succ n ih => exact fun _ => ih _

/-- Settles O11: one multiplication gives the free value, and so does every iteration of the loop. -/
theorem zeroModulusResultIsFree : Obligations.ZeroModulusResultIsFree := by
  refine fun a b e w x => ⟨modMul_zero a b x, fun hw => ?_⟩
  obtain ⟨n, rfl⟩ := Nat.exists_eq_add_one_of_ne_zero hw.ne'
  exact modExpLoop_zero a e x n 1

/-! ### From acceptance to the result -/

/-- With a silent host a command in flight is over after as many clock edges as CYC says, with its value in RESULT
(40_command_lifecycle.md R112, R113). -/
theorem run_completes {s : State} {c : Active} (hs : s.schedule = []) (ha : s.active = some c) (hc : 0 < s.cyc)
    (hw : 0 < c.width) (hm : s.mod ≠ 0#2048) :
    ∃ t, Host.Core.run core s.cyc s = .next t ∧ t.result.toNat = s.expectedResult c ∧
      t.status = s.status.completed false ∧ sameOperands s t ∧ t.params = s.params ∧ t.ie = s.ie := by
  obtain ⟨n, hn⟩ := Nat.exists_eq_add_one_of_ne_zero hc.ne'
  have hrun := run_counts c n s hs ha (by omega)
  rw [show s.cyc - n = 1 by omega] at hrun
  have hlast : step { s with cyc := 1 } = .next (State.complete { s with cyc := 1 } c) := by
    rw [step_silent (by exact hs), clock_completes (by exact ha) le_rfl]
  rw [hn]
  refine ⟨_, (run_last n hrun).trans hlast, complete_result_toNat (s := { s with cyc := 1 }) hw hm, ?_, ?_, ?_, ?_⟩
  · simp [eqBit_zero, hm]
  · simp [sameOperands]
  · simp
  · simp

/-- EXP holds no bit at or above `W`, so MODEXP's exponent is all of it (44_square_and_multiply_engine.md R198). -/
theorem expectedResult_modexp_full {s : State} (hs : s.Inv) :
    s.expectedResult { op := .modexp, width := s.params.width } = s.opa.toNat ^ s.exp.toNat % s.mod.toNat := by
  have hexp : s.exp.toNat % 2 ^ s.params.width = s.exp.toNat := Nat.mod_eq_of_lt (hs.operands .exp)
  exact congrArg (s.opa.toNat ^ · % s.mod.toNat) hexp

/-- Settles O12: the accepted command counts its latency down, and the last edge completes it. -/
theorem everyCommandRunsToItsResult : Obligations.EveryCommandRunsToItsResult := by
  intro i s hs hb hsched hm
  have hsched' : (s.accept (opOf i) (emodeOf i)).schedule = [] := by simp [hsched]
  have hact := s.accept_active (opOf i) (emodeOf i)
  have hcyc := s.accept_cyc (opOf i) (emodeOf i)
  have hop : sameOperands s (s.accept (opOf i) (emodeOf i)) := by simp [sameOperands]
  obtain ⟨t, hrun, hresult, hstatus, ht, hparams, hie⟩ := run_completes hsched' hact
    (hcyc ▸ latencyOf_pos hs.params _ _) (emodeWidth_pos hs.params _) (by simpa using hm)
  rw [hcyc] at hrun
  rw [expectedResult_of_sameOperands hop] at hresult
  refine ⟨_, t, exec_idle hb i, ?_, ?_, hresult.trans_lt (expectedResult_lt _ hm), ?_, ?_, ?_, ?_,
    fun k u hk hu => ?_⟩
  · cases i <;> exact hrun
  · cases i with
    | modexp => exact hresult.trans (expectedResult_modexp_full hs)
    | modmul | modexpE64 | modexpE32 => exact hresult
  · simp [hstatus, Status.completed, Status.accepted]
  · simpa [sameOperands] using ht
  · simpa using hparams
  · simpa using hie
  · rw [run_counts _ k _ hsched' hact (hcyc ▸ hk)] at hu
    cases hu
    simp

/-! ### The reference long division -/

/-- A number down to bit `j` is its part above `j` shifted up, with bit `j`. -/
theorem div_two_pow_eq_shift (v j : Nat) : v / 2 ^ j = 2 * (v / 2 ^ (j + 1)) + (bitOf v j).toNat := by
  rw [bitOf, Nat.toNat_testBit, pow_succ, ← Nat.div_div_eq_div_mul]
  exact (Nat.div_add_mod _ 2).symm

/-- The shifted remainder is below `2m` (42_modular_multiplier.md R153). -/
theorem two_mul_add_bit_lt {m rem : Nat} (hrem : rem < m) (b : Bool) : 2 * rem + b.toNat < 2 * m := by
  have hb := b.toNat_le
  omega

/-- A subtraction that does not borrow is the difference. -/
theorem subWithBorrow_of_le {n a b : Nat} (hab : b ≤ a) (ha : a < 2 ^ n) : (subWithBorrow n a b false).1 = a - b := by
  have hb : b % 2 ^ n = b := Nat.mod_eq_of_lt (hab.trans_lt ha)
  rw [subWithBorrow, Bool.toNat_false, Nat.add_zero, hb, Nat.sub_add_comm hab, Nat.add_mod_right]
  exact Nat.mod_eq_of_lt ((Nat.sub_le a b).trans_lt ha)

/-- Subtracting `m` where that does not borrow reduces the shifted remainder modulo `m` (42_modular_multiplier.md R152,
R153). -/
theorem modMulStep_eq_mod {w m rem : Nat} (prod j : Nat) (hm : m < 2 ^ w) (hrem : rem < m) :
    modMulStep w prod m j rem = (2 * rem + (bitOf prod j).toNat) % m := by
  have hlt := two_mul_add_bit_lt hrem (bitOf prod j)
  change select (geBit (w + 1) _ m) _ _ = _
  by_cases hge : m ≤ 2 * rem + (bitOf prod j).toNat
  · rw [(geBit_iff _ _ _).2 hge, select, if_pos rfl, subWithBorrow_of_le hge (by rw [pow_succ]; omega),
      Nat.mod_eq_sub_mod hge, Nat.mod_eq_of_lt (by omega)]
  · rw [select, if_neg (mt (geBit_iff _ _ _).1 hge), Nat.mod_eq_of_lt (by omega)]

/-- A step takes the remainder of PROD's bits above `j` to that of its bits from `j` on (42_modular_multiplier.md R153). -/
theorem modMulStep_remainder {w m : Nat} (prod j : Nat) (hm : m < 2 ^ w) (h1 : 1 ≤ m) :
    modMulStep w prod m j (prod / 2 ^ (j + 1) % m) = prod / 2 ^ j % m := by
  rw [modMulStep_eq_mod prod j hm (Nat.mod_lt _ h1), div_two_pow_eq_shift prod j]
  exact ((Nat.mod_modEq _ m).mul_left 2).add_right _

theorem modMulLoop_remainder {w m : Nat} (prod : Nat) (hm : m < 2 ^ w) (h1 : 1 ≤ m) (n : Nat) :
    modMulLoop w prod m n (prod / 2 ^ n % m) = prod % m := by
  induction n with
  | zero => rw [modMulLoop, pow_zero, Nat.div_one]
  | succ n ih => rw [modMulLoop, modMulStep_remainder prod n hm h1, ih]

/-- The reference algorithm starts from a remainder of 0, as the product has no bit at or above `2W`
(42_modular_multiplier.md R152, R153). -/
theorem modMulRef_eq_mod {w a b m : Nat} (ha : a < 2 ^ w) (hb : b < 2 ^ w) (hm : m < 2 ^ w) (h1 : 1 ≤ m) :
    modMulRef w a b m = a * b % m := by
  have hprod : a * b < 2 ^ (2 * w) := by
    rw [two_mul, pow_add]
    exact Nat.mul_lt_mul'' ha hb
  have hloop := modMulLoop_remainder (a * b) hm h1 (2 * w)
  rw [Nat.div_eq_of_lt hprod, Nat.zero_mod] at hloop
  rw [modMulRef, multiplyFull, hloop]
  exact Nat.mod_eq_of_lt ((Nat.mod_lt _ h1).trans hm)

/-- Settles O25, by the loop's invariant. -/
theorem referenceReductionIsExact : Obligations.ReferenceReductionIsExact := by
  refine ⟨fun w a b m ha hb hm h1 => ?_, fun w prod m j hm h1 => ?_⟩
  · have href := modMulRef_eq_mod ha hb hm h1
    exact ⟨href, fun x => (modMul_of_ne_zero (by omega) a b x).trans href.symm⟩
  · have hlt := two_mul_add_bit_lt (Nat.mod_lt (prod / 2 ^ (j + 1)) h1) (bitOf prod j)
    have hfit : 2 * m < 2 ^ (w + 1) := by
      rw [pow_succ]
      omega
    exact ⟨hlt, hlt.trans hfit, modMulStep_remainder prod j hm h1⟩

/-! ### ModMul and residues -/

/-- Settles O26: with `m ≥ 1` ModMul is the product modulo `m`. -/
theorem modMulDependsOnResidues : Obligations.ModMulDependsOnResidues := by
  intro a b m x h1
  simp only [modMul_of_ne_zero (show m ≠ 0 by omega)]
  exact ⟨by rw [Nat.mul_comm], Nat.mul_mod a b m, Nat.mod_lt _ h1⟩

end Sys2Proof.Machine

/-!
PROOFS of the statements about the binary exponent decoder (43_binary_exponent_decoder.md): which bits of EXP the exponent
has, where a bit stands in the register's words and byte buffer, and the order in which the bits are consumed.
-/

namespace Sys2Proof.Machine

/-! ### A bit of the exponent -/

/-- Below the exponent's width the decoder gives EXP's own bits (43_binary_exponent_decoder.md R171). -/
theorem decoderBit_eq_getLsbD {w i : Nat} (v : Operand) (hi : i < w) : decoderBit v w i = v.getLsbD i := by
  rw [decoderBit, bitOf, exponentOf, Nat.testBit_mod_two_pow, BitVec.testBit_toNat, decide_eq_true hi, Bool.true_and]

theorem consumedBit_eq_getLsbD {w t : Nat} (v : Operand) (ht : t < w) : consumedBit v w t = v.getLsbD (w - 1 - t) :=
  decoderBit_eq_getLsbD v (by omega)

/-- The exponent has no bit at or above its width (43_binary_exponent_decoder.md R172). -/
theorem exponentOf_congr {v v' : Operand} {w : Nat} (h : ∀ i, i < w → v.getLsbD i = v'.getLsbD i) :
    exponentOf v w = exponentOf v' w := by
  refine Nat.eq_of_testBit_eq fun i => ?_
  simp only [exponentOf, Nat.testBit_mod_two_pow, BitVec.testBit_toNat]
  by_cases hi : i < w
  · rw [h i hi]
  · simp only [hi, decide_false, Bool.false_and]

/-- Settles O29: MODMUL does not read EXP, and MODEXP reads only the exponent. -/
theorem exponentBitsAboveWidthAreIgnored : Obligations.ExponentBitsAboveWidthAreIgnored := by
  rintro s ⟨op, w⟩ v x h
  cases op with
  | modmul => rfl
  | modexp => exact congrArg (modExp s.opa.toNat · w s.mod.toNat x) (exponentOf_congr h)

/-! ### Consumption by the engine -/

theorem exponent_of_active {s : State} {c : Active} (ha : s.active = some c) : s.exponent = exponentOf s.exp c.width := by
  rw [State.exponent, ha]

/-- Between the halves of an iteration the next internal operation is its second half (44_square_and_multiply_engine.md
R192). -/
theorem work_of_expMultiply {s : State} {i : Nat} (hp : s.phase = .expMultiply) (hi : s.iter = i + 1) :
    s.work = s.multiplyStep i := by
  rw [State.work, hp, hi]

/-- The second half of an iteration at bit `i` selects by the bit that iteration `W'-1-i` consumes
(44_square_and_multiply_engine.md R192). -/
theorem multiplyStep_acc_eq_consumed {s : State} {c : Active} {i : Nat} (ha : s.active = some c) (hi : i < c.width) :
    (s.multiplyStep i).acc =
      if consumedBit s.exp c.width (c.width - 1 - i) then (s.multiplyStep i).sqb else s.sq := by
  have hlast : c.width - 1 - (c.width - 1 - i) = i := by omega
  rw [consumedBit, hlast, State.multiplyStep_acc, exponent_of_active ha]
  rfl

/-- Settles O31: the decoder's bits are EXP's, and the engine at ITER = W' - t selects by bit W' - 1 - t. -/
theorem bitsAreConsumedMostSignificantFirst : Obligations.BitsAreConsumedMostSignificantFirst := by
  refine ⟨fun v w t ht => ⟨Nat.testBit_eq_decide_div_mod_eq, decoderBit_eq_getLsbD v ht, rfl, ?_, ?_⟩,
    fun s c i ha hi => multiplyStep_acc_eq_consumed ha hi, fun s c t ha ht hp hi => ?_⟩
  · exact consumedBit_eq_getLsbD v (by omega)
  · rw [consumedBit_eq_getLsbD v (by omega), Nat.sub_self]
  · have hwork : s.work = s.multiplyStep (c.width - 1 - t) := work_of_expMultiply hp (by omega)
    have hacc := multiplyStep_acc_eq_consumed ha (show c.width - 1 - t < c.width by omega)
    rw [show c.width - 1 - (c.width - 1 - t) = t by omega] at hacc
    exact ⟨hwork, hwork ▸ hacc⟩

/-! ### The exponent in EXP's bytes and words -/

/-- Bit `j` of byte `k` of the big-endian buffer (41_bigint_primitives.md R141). -/
theorem getLsbD_bigEndianByte {j : Nat} (w v k : Nat) (hj : j < 8) :
    (bigEndianByte w v k).getLsbD j = bitOf v (w - 8 - 8 * k + j) := by
  rw [bigEndianByte, BitVec.getLsbD_ofNat, Nat.testBit_div_two_pow, decide_eq_true hj, Bool.true_and, Nat.add_comm, bitOf]

/-- Settles O32: each of the two bits is the one that the byte holds at that place. -/
theorem exponentBitInByteBuffer : Obligations.ExponentBitInByteBuffer := by
  intro w e k h8 _ hk
  rw [getLsbD_bigEndianByte w e _ (by omega), getLsbD_bigEndianByte w e _ (by omega)]
  exact ⟨congrArg (bitOf e) (by omega), congrArg (bitOf e) (by omega)⟩

/-- The low 64 bits of a register are two words (43_binary_exponent_decoder.md R175). -/
theorem exponentOf_64 (v : Operand) :
    exponentOf v 64 = (v.extractLsb' 32 32).toNat * 2 ^ 32 + (v.extractLsb' 0 32).toNat := by
  simp only [exponentOf, BitVec.extractLsb'_toNat, Nat.shiftRight_eq_div_pow]
  omega

/-- A consumed bit found in a 32-bit slice of EXP (43_binary_exponent_decoder.md R175). -/
theorem consumedBit_eq_getLsbD_extractLsb' {w t start j : Nat} (v : Operand) (ht : t < w) (hj : j < 32)
    (hbit : w - 1 - t = start + j) : consumedBit v w t = (v.extractLsb' start 32).getLsbD j := by
  rw [consumedBit_eq_getLsbD v ht, hbit, BitVec.getLsbD_extractLsb', decide_eq_true hj, Bool.true_and]

/-- Settles O33: EXP's last two words are its bits 63:32 and 31:0, consumed from bit 63 down. -/
theorem splitExponentHighWordFirst : Obligations.SplitExponentHighWordFirst := by
  rintro p v ⟨h32, hmin, -⟩
  have hhi : wordOf p.width v (p.nwords - 2) = v.extractLsb' 32 32 := by
    rw [wordOf, show wordShift p.width (p.nwords - 2) = 32 by simp only [wordShift, Params.nwords]; omega]
  have hlo : wordOf p.width v (p.nwords - 1) = v.extractLsb' 0 32 := by
    rw [wordOf, show wordShift p.width (p.nwords - 1) = 0 by simp only [wordShift, Params.nwords]; omega]
  dsimp only
  rw [hhi, hlo]
  exact ⟨rfl, rfl, exponentOf_64 v,
    fun t ht => consumedBit_eq_getLsbD_extractLsb' v (by omega) (by omega) (by omega),
    fun t ht => consumedBit_eq_getLsbD_extractLsb' v (by omega) (by omega) (by omega)⟩

end Sys2Proof.Machine

/-!
PROOFS of the statements about the square-and-multiply engine (44_square_and_multiply_engine.md): its loop invariant on
the hidden registers, its result, its operation count, and its function as a power.
-/

namespace Sys2Proof.Machine

/-! ### The loop invariant and what it reads -/

/-- The engine's invariant reads the operands, ACTIVE, PHASE, ITER, ACC and SQ, and nothing else. -/
theorem State.EngineInv.congr {s t : State} (h : s.EngineInv) (hop : sameOperands s t) (hact : t.active = s.active)
    (hph : t.phase = s.phase) (hit : t.iter = s.iter) (hacc : t.acc = s.acc) (hsq : t.sq = s.sq) : t.EngineInv := by
  obtain ⟨ha, -, hm, he⟩ := hop
  rw [State.EngineInv, ha, hm, he, hact, hph, hit, hacc, hsq]
  exact h

section MidLoop

variable {s : State} {c : Active} (h : s.EngineInv) (ha : s.active = some c) (ho : c.op = .modexp)
  (hm : s.mod.toNat ≠ 0)

include h ha ho hm

/-- Modulo `m`, ACC is the power of the exponent's bits consumed so far, its initial 1 included: none is consumed then,
and `base ^ 0` is 1 (44_square_and_multiply_engine.md R191, R196). -/
theorem State.EngineInv.acc_mod_eq_pow :
    s.acc.toNat % s.mod.toNat = s.opa.toNat ^ (exponentOf s.exp c.width / 2 ^ s.iter) % s.mod.toNat := by
  obtain ⟨hacc, -⟩ := h c ha ho hm
  by_cases hfirst : s.iter = c.width
  · have hnone : exponentOf s.exp c.width / 2 ^ c.width = 0 := Nat.div_eq_of_lt (Nat.mod_lt _ (by positivity))
    rw [hacc, if_pos hfirst, hfirst, hnone, pow_zero]
  · rw [hacc, if_neg hfirst, Nat.mod_mod]

/-- The second half of iteration `i` leaves in ACC the power of the exponent's bits from `i` on
(44_square_and_multiply_engine.md R192, R196). -/
theorem State.EngineInv.multiplyStep_acc_eq_pow {i : Nat} (hs : s.Inv) (hp : s.phase = .expMultiply)
    (hi : s.iter = i + 1) :
    (s.multiplyStep i).acc.toNat = s.opa.toNat ^ (exponentOf s.exp c.width / 2 ^ i) % s.mod.toNat := by
  have hpow := squareAndMultiply_eq_pow s.anyW hm (hi ▸ h.acc_mod_eq_pow ha ho hm)
  obtain ⟨-, hsq⟩ := h c ha ho hm
  have hsq : s.sq.toNat = modMul s.acc.toNat s.acc.toNat s.mod.toNat s.anyW :=
    (hsq hp (by omega)).trans (modMul_of_ne_zero hm _ _ _).symm
  rw [State.multiplyStep_acc, exponent_of_active ha, apply_ite BitVec.toNat,
    multiply_unitResult hs.params (hs.operands .mod), hsq]
  exact hpow

end MidLoop

/-! ### Each event keeps the loop invariant -/

/-- The first half of an iteration leaves ACC's square in SQ (44_square_and_multiply_engine.md R192). -/
theorem State.EngineInv.squareStep {s : State} (h : s.EngineInv) (hs : s.Inv) : s.squareStep.EngineInv := by
  intro c ha ho hm
  obtain ⟨hacc, -⟩ := h c ha ho hm
  refine ⟨hacc, fun _ _ => ?_⟩
  rw [State.squareStep_sq, multiply_unitResult hs.params (hs.operands .mod)]
  exact modMul_of_ne_zero hm _ _ _

/-- The second half of an iteration takes ACC one exponent bit further (44_square_and_multiply_engine.md R192, R196); in
EXP_MULTIPLY no bit is left after it. -/
theorem State.EngineInv.multiplyStep {s : State} {i : Nat} (h : s.EngineInv) (hs : s.Inv) (hp : s.phase = .expMultiply)
    (hi : s.iter = i + 1) : (s.multiplyStep i).EngineInv := by
  intro c ha ho hm
  obtain ⟨m, hfl⟩ := hs.inFlight c ha
  have hne : i ≠ c.width := by
    have hle := hfl.iterLe
    omega
  rw [State.multiplyStep_iter, if_neg hne]
  refine ⟨h.multiplyStep_acc_eq_pow ha ho hm hs hp hi, fun hph hpos => ?_⟩
  rw [State.multiplyStep_phase, if_neg hpos.ne'] at hph
  cases hph

theorem State.EngineInv.work {s : State} (h : s.EngineInv) (hs : s.Inv) : s.work.EngineInv := by
  rcases work_cases s with e | ⟨-, -, e⟩ | ⟨i, hp, hi, e⟩ <;> rw [e]
  · exact h
  · exact h.squareStep hs
  · exact h.multiplyStep hs hp hi

/-- A clock edge counts, or it ends the command and with it the loop (40_command_lifecycle.md R112, R113). -/
theorem State.EngineInv.clock {s : State} (h : s.EngineInv) : s.clock.EngineInv := by
  rcases clock_cases s with ⟨-, e⟩ | ⟨c, -, ⟨-, e⟩ | ⟨-, e⟩⟩ <;> rw [e]
  · exact h
  · exact h.congr ⟨rfl, rfl, rfl, rfl⟩ rfl rfl rfl rfl rfl
  · exact engineInv_of_inactive (complete_active s c)

/-- An accepted MODEXP starts with ACC = 1, every bit of its exponent left, and its first half to come
(44_square_and_multiply_engine.md R191). -/
theorem accept_engineInv (s : State) (o : Op) (m : EMode) : (s.accept o m).EngineInv := by
  intro c ha ho _
  rw [State.accept_active, Option.some.injEq] at ha
  subst ha
  cases ho
  refine ⟨?_, nofun⟩
  rw [State.accept_modexp_acc, BitVec.toNat_one (by decide)]
  exact (if_pos rfl).symm

/-- A transaction leaves a busy engine alone; an idle core accepts a command or stays idle. -/
theorem Transacted.engineInv {tr : Transaction} {now : SetNow} {s t : State} (h : Transacted tr now s t) (hs : s.Inv)
    (he : s.EngineInv) : t.EngineInv := by
  cases hb : s.status.busy with
  | true =>
    obtain ⟨hop, hact, hph, -, hit, hacc, -⟩ := h.busy hb
    obtain ⟨-, -, -, hsq, -⟩ := h.frame
    exact he.congr hop hact hph hit hacc hsq
  | false =>
    obtain ⟨-, hctl⟩ := (inv_iff s).mp hs
    rcases h.idle hb with ⟨o, m, rfl, -⟩ | ⟨-, -, hact, -⟩
    · exact accept_engineInv _ o m
    · exact engineInv_of_inactive (hact.trans (hctl.active_of_idle hb))

theorem Happened.engineInv {s t : State} {e : Event} (h : Happened s e t) (hs : s.Inv) (he : s.EngineInv) :
    t.EngineInv := by
  cases h with
  | txn k => exact k.engineInv hs he
  | tick => exact he.clock
  | cycleIdle _ k => exact k.engineInv hs he
  | cycleBefore _ k => exact (k.engineInv hs he).clock
  | cycleAfter _ k => exact k.engineInv hs.clock he.clock
  | work => exact he.work hs
  | reset => exact engineInv_of_inactive rfl

/-- Settles O18: each event keeps the loop invariant, and a step is one event. -/
theorem engineInvariantKeptByEveryStep : Obligations.EngineInvariantKeptByEveryStep := by
  intro s t hs he h
  have hpop : s.popEvent.EngineInv := he.congr ⟨rfl, rfl, rfl, rfl⟩ rfl rfl rfl rfl rfl
  exact (step_cases h).engineInv hs.popEvent hpop

/-! ### The engine's result -/

/-- Settles O19: with no bit left the loop invariant gives the whole power, which is what the command writes. -/
theorem accumulatorIsTheResultWhenIterIsZero : Obligations.AccumulatorIsTheResultWhenIterIsZero := by
  intro s c hs he ha ho hm hi
  have hw : 0 < c.width := hs.active_width_pos ha
  obtain ⟨hacc, -⟩ := he c ha ho (operand_toNat_ne_zero hm)
  rw [hi, if_neg hw.ne, pow_zero, Nat.div_one] at hacc
  have hexpected : s.expectedResult c = s.acc.toNat := by
    rw [State.expectedResult, ho]
    exact hacc.symm
  refine ⟨hacc, ?_⟩
  rw [State.retire_result, commandResult_eq_expectedResult _ hw hm, hexpected, BitVec.ofNat_toNat, BitVec.setWidth_eq]

/-! ### The number of internal operations -/

/-- The engine stands after `k` internal operations of a loop over `w` bits, begun with `d` free values drawn: two
operations an iteration, the square first (44_square_and_multiply_engine.md R192, R195). -/
structure State.EngineAt (s : State) (w d k : Nat) : Prop where
  iter : s.iter = w - k / 2
  phase : s.phase = if k % 2 = 0 ∧ k < 2 * w then .expSquare else .expMultiply
  draws : s.draws = d + k

theorem accept_engineAt {s : State} (m : EMode) (hp : s.params.Wf) :
    (s.accept .modexp m).EngineAt (m.width s.params) s.draws 0 := by
  have hw := emodeWidth_pos hp m
  exact ⟨rfl, (if_pos ⟨rfl, by omega⟩).symm, rfl⟩

/-- While a bit is left, the next internal operation in EXP_SQUARE is an iteration's first half
(44_square_and_multiply_engine.md R192). -/
theorem work_of_expSquare {s : State} (hp : s.phase = .expSquare) (hi : 0 < s.iter) : s.work = s.squareStep := by
  obtain ⟨i, hi⟩ := Nat.exists_eq_add_one_of_ne_zero hi.ne'
  rw [State.work, hp, hi]

/-- Before the end of the loop an internal operation is half of an iteration and uses the multiplier once
(44_square_and_multiply_engine.md R192). -/
theorem State.EngineAt.work {s : State} {w d k : Nat} (h : s.EngineAt w d k) (hk : k < 2 * w) :
    s.work.EngineAt w d (k + 1) := by
  obtain ⟨hit, hph, hdr⟩ := h
  by_cases heven : k % 2 = 0
  · rw [if_pos ⟨heven, hk⟩] at hph
    have hwork : s.work = s.squareStep := work_of_expSquare hph (by omega)
    rw [hwork]
    refine ⟨?_, ?_, ?_⟩
    · rw [State.squareStep_iter, hit]; omega
    · rw [State.squareStep_phase, if_neg (by omega)]
    · rw [State.squareStep_draws, State.multiply_draws, hdr, Nat.add_assoc]
  · rw [if_neg (by omega)] at hph
    have hwork : s.work = s.multiplyStep (w - (k + 1) / 2) := work_of_expMultiply hph (by omega)
    rw [hwork]
    refine ⟨rfl, ?_, ?_⟩
    · have hlast : w - (k + 1) / 2 = 0 ↔ ¬((k + 1) % 2 = 0 ∧ k + 1 < 2 * w) := by omega
      rw [State.multiplyStep_phase, if_congr hlast rfl rfl, ite_not]
    · rw [State.multiplyStep_draws, State.multiply_draws, hdr, Nat.add_assoc]

theorem State.EngineAt.workFor {w d : Nat} (n : Nat) : ∀ {s : State} {k : Nat}, s.EngineAt w d k →
    k + n ≤ 2 * w → (s.workFor n).EngineAt w d (k + n) := by
  induction n with
  | zero => exact fun h _ => h
  | succ n ih =>
    intro s k h hk
    have hrest := ih (h.work (by omega)) (by omega)
    rwa [Nat.add_assoc, Nat.add_comm 1 n] at hrest

/-- After the last iteration the engine waits for the completion (44_square_and_multiply_engine.md R193). -/
theorem State.EngineAt.work_of_end {s : State} {w d : Nat} (h : s.EngineAt w d (2 * w)) : s.work = s := by
  have hph : s.phase = .expMultiply := h.phase.trans (if_neg (by omega))
  have hit : s.iter = 0 := by
    rw [h.iter]; omega
  rw [State.work, hph, hit]

/-- Settles O20: from acceptance each operation moves the engine on by one half of an iteration. -/
theorem engineOperationCount : Obligations.EngineOperationCount := by
  intro s m hp
  have hat : ∀ k, k ≤ 2 * m.width s.params →
      ((s.accept .modexp m).workFor k).EngineAt (m.width s.params) s.draws k := by
    intro k hk
    have h := (accept_engineAt m hp).workFor k (by omega)
    rwa [Nat.zero_add] at h
  refine ⟨fun k hk => ?_, (hat _ le_rfl).work_of_end⟩
  obtain ⟨hit, hph, hdr⟩ := hat k hk
  exact ⟨hit, hph, hdr⟩

/-! ### The engine's function -/

/-- Settles O27: the loop's end and its step. -/
theorem squareAndMultiplyIsThePower : Obligations.SquareAndMultiplyIsThePower :=
  ⟨fun _ _ _ _ x hw he hm => modExp_eq_pow x (Nat.ne_of_gt hm) hw he,
    fun _ _ _ _ _ x hm hacc => squareAndMultiply_eq_pow x (Nat.ne_of_gt hm) hacc⟩

/-- Settles O28: each corner case is one of the power that ModExp is. -/
theorem exponentiationCornerCases : Obligations.ExponentiationCornerCases := by
  intro base e w m x hw he hm
  have hm0 : m ≠ 0 := Nat.ne_of_gt hm
  refine ⟨?_, fun hpos => ?_, ?_, ?_⟩
  · rw [modExp_eq_pow x hm0 hw (by positivity), pow_zero]
  · rw [modExp_eq_pow x hm0 hw he, zero_pow hpos.ne', Nat.zero_mod]
  · rw [modExp_eq_pow x hm0 hw he, modExp_eq_pow x hm0 hw he, Nat.pow_mod]
  · rw [modExp_eq_pow x one_ne_zero hw he, Nat.mod_one]

end Sys2Proof.Machine

/-!
PROOFS of the statements about errors and races (60_exceptions.md): completion with a zero modulus, the two recorded
errors ILL and WBUSY, a STATUS or CMD write in the cycle of a completion, and totality.
-/

namespace Sys2Proof.Machine

/-! ### Every step goes on -/

theorem Transacted.params {tr : Transaction} {now : SetNow} {s t : State} (h : Transacted tr now s t) :
    t.params = s.params := by
  obtain ⟨hpar, -⟩ := h.frame
  exact hpar

/-- No event changes the parameters (00_scope.md R10). -/
theorem Happened.params {s t : State} {e : Event} (h : Happened s e t) : t.params = s.params := by
  cases h with
  | txn k => exact k.params
  | tick => exact clock_params s
  | cycleIdle _ k => exact k.params
  | cycleBefore _ k => exact (clock_params _).trans k.params
  | cycleAfter _ k => exact k.params.trans (clock_params s)
  | work => exact (work_outside s).params
  | reset => rfl

/-- Settles O54: each event has a next state, and it is one of `Happened`'s. -/
theorem everyStepGoesOn : Obligations.EveryStepGoesOn := by
  intro s
  obtain ⟨t, h, k⟩ := applyEvent_cases (nextEvent s.schedule) s.popEvent
  exact ⟨t, h, k.params⟩

/-! ### Completion with a zero modulus -/

/-- At CYC = 1 a clock edge is the completion, whatever MOD holds (40_command_lifecycle.md R112). -/
theorem step_of_lastTick {s : State} {c : Active} (hev : nextEvent s.schedule = .tick) (hact : s.active = some c)
    (hcyc : s.cyc = 1) : step s = .next (s.popEvent.complete c) := by
  rw [step, hev, applyEvent, clock_completes (s := s.popEvent) hact hcyc.le]

/-- A completion writes a W-bit value, also for a zero modulus (42_modular_multiplier.md R155). -/
theorem State.Inv.complete_result_lt {s : State} (h : s.Inv) (c : Active) :
    (s.complete c).result.toNat < 2 ^ s.params.width := by
  have hres := (h.complete c).operands .result
  rwa [complete_params] at hres

/-- Settles O10: the completion is the one of every modulus, and only MZ and the value say that MOD was 0. -/
theorem zeroModulusCompletesWithMz : Obligations.ZeroModulusCompletesWithMz := by
  intro s c hs hev hact hcyc hm
  refine ⟨_, step_of_lastTick hev hact hcyc, ?_, hs.popEvent.complete_result_lt c, rfl, rfl, rfl, rfl,
    ?_, ?_, ?_, ?_, ?_, fun a ha hres => ?_⟩
  · rw [complete_status, eqBit_zero]
    exact congrArg s.status.completed (decide_eq_true hm)
  · simp
  · simp [sameOperands]
  · simp
  · simp
  · simp
  · rw [complete_windowRead s.popEvent c ha hres, popEvent_windowRead]

/-! ### The recorded errors -/

/-- The parameters, ILL and WBUSY are as before (60_exceptions.md R222, R223). -/
structure SameErrors (s t : State) : Prop where
  params : t.params = s.params
  ill : t.status.ill = s.status.ill
  wbusy : t.status.wbusy = s.status.wbusy

theorem SameErrors.refl (s : State) : SameErrors s s := ⟨rfl, rfl, rfl⟩

/-- A clock edge, completing or not, records and clears no error. -/
theorem clock_sameErrors (s : State) : SameErrors s s.clock := ⟨clock_params s, clock_ill s, clock_wbusy s⟩

theorem SameOutside.sameErrors {s t : State} (h : SameOutside s t) : SameErrors s t :=
  ⟨h.params, by rw [h.status], by rw [h.status]⟩

/-- Only a reset or a transaction reaches ILL or WBUSY; a clock edge of the transaction's cycle does not, before it or
after it. -/
theorem Happened.errors_cases {s t : State} {e : Event} (h : Happened s e t) :
    (e = .reset ∧ t.status = Status.reset) ∨ SameErrors s t ∨
    ∃ tr now u v, (e = .txn tr ∨ ∃ first, e = .cycle tr first) ∧
      (u.status.busy = true → s.status.busy = true) ∧
      SameErrors s u ∧ Transacted tr now u v ∧ SameErrors v t := by
  cases h with
  | txn k => exact .inr (.inr ⟨_, _, _, _, .inl rfl, id, .refl s, k, .refl t⟩)
  | tick => exact .inr (.inl (clock_sameErrors s))
  | cycleIdle _ k => exact .inr (.inr ⟨_, _, _, _, .inr ⟨_, rfl⟩, id, .refl s, k, .refl t⟩)
  | cycleBefore _ k => exact .inr (.inr ⟨_, _, _, _, .inr ⟨_, rfl⟩, id, .refl s, k, clock_sameErrors _⟩)
  | cycleAfter hb k =>
    exact .inr (.inr ⟨_, _, _, _, .inr ⟨_, rfl⟩, fun _ => hb, clock_sameErrors s, k, .refl t⟩)
  | work => exact .inr (.inl (work_outside s).sameErrors)
  | reset => exact .inl ⟨rfl, rfl⟩

section

variable {tr : Transaction} {now : SetNow} {s t : State} (h : Transacted tr now s t)

include h

/-- Of the transactions only a write of 1 to STATUS bit 3 clears ILL (10_state.md R30). -/
theorem Transacted.ill_cleared (hs : s.status.ill = true) (ht : t.status.ill = false) :
    tr.accessOk = true ∧ tr.write = true ∧ tr.addr = 0x008#12 ∧ tr.wdata.getLsbD 3 = true := by
  cases h with
  | status hok hw ha => exact ⟨hok, hw, ha, by simpa [hs] using ht⟩
  | _ => simp [hs] at ht

/-- Of the transactions only a write of 1 to STATUS bit 4 clears WBUSY (10_state.md R30). -/
theorem Transacted.wbusy_cleared (hs : s.status.wbusy = true) (ht : t.status.wbusy = false) :
    tr.accessOk = true ∧ tr.write = true ∧ tr.addr = 0x008#12 ∧ tr.wdata.getLsbD 4 = true := by
  cases h with
  | status hok hw ha => exact ⟨hok, hw, ha, by simpa [hs] using ht⟩
  | _ => simp [hs] at ht

/-- Of the transactions only a dropped write sets WBUSY (60_exceptions.md R223). -/
theorem Transacted.wbusy_set (hs : s.status.wbusy = false) (ht : t.status.wbusy = true) :
    s.status.busy = true ∧ tr.accessOk = true ∧ tr.write = true ∧
      (target s.params.nwords tr.addr = .cmd ∨
        ∃ r j, r ≠ .result ∧ target s.params.nwords tr.addr = .operand r j) := by
  cases h with
  | droppedCommand hok hw ha hb => exact ⟨hb, hok, hw, .inl (by rw [ha, target_cmd])⟩
  | droppedWord r j hok hw htg hr hb => exact ⟨hb, hok, hw, .inr ⟨r, j, hr, htg⟩⟩
  | _ => simp [hs] at ht

end

/-- A word that is not legal is dropped by an idle core, which records ILL (60_exceptions.md R222). -/
theorem step_of_illegal_write {s : State} {w : Word} {rest : List Event} (hb : s.status.busy = false)
    (hw : legal w = false) (h : s.schedule = .txn (Transaction.store 0x004#12 w) :: rest) :
    step s = .next (State.setIll { s with schedule := rest, rsp := some Response.written }) := by
  obtain ⟨-, -, hillegal⟩ := exactlyFourWordsAreLegal w
  obtain ⟨why, hd⟩ := hillegal.mp hw
  exact (step_of_command_write h).trans
    (issueCommand_illegal (s := { s with schedule := rest, rsp := some Response.written }) hb hd)

/-- Settles O48: the write of an illegal word, then the events that clear ILL. -/
theorem illegalWordSetsStickyIll : Obligations.IllegalWordSetsStickyIll := by
  refine ⟨fun s rest w hb hw h => step_of_illegal_write hb hw h, fun s t h hs ht => ?_⟩
  rcases (step_cases h).errors_cases with ⟨e, -⟩ | k | ⟨tr, now, u, v, hev, -, hsu, k, hvt⟩
  · exact .inl e
  · exact absurd (k.ill.symm.trans ht) (by simp [hs])
  · exact .inr ⟨tr, hev, k.ill_cleared (hsu.ill.trans hs) (hvt.ill.symm.trans ht)⟩

/-- Settles O49: WBUSY is set and cleared by transactions alone, but for a reset. -/
theorem wbusyRecordsDroppedWrites : Obligations.WbusyRecordsDroppedWrites := by
  refine ⟨fun s t h hs ht => ?_, fun s t h hs ht => ?_⟩
  · rcases (step_cases h).errors_cases with ⟨-, hreset⟩ | k | ⟨tr, now, u, v, hev, hbusy, hsu, k, hvt⟩
    · simp [hreset, Status.reset] at ht
    · exact absurd (k.wbusy.symm.trans ht) (by simp [hs])
    · obtain ⟨hb, hok, hw, htarget⟩ := k.wbusy_set (hsu.wbusy.trans hs) (hvt.wbusy.symm.trans ht)
      rw [hsu.params] at htarget
      exact ⟨hbusy hb, tr, hev, hok, hw, htarget⟩
  · rcases (step_cases h).errors_cases with ⟨e, -⟩ | k | ⟨tr, now, u, v, hev, -, hsu, k, hvt⟩
    · exact .inl e
    · exact absurd (k.wbusy.symm.trans ht) (by simp [hs])
    · exact .inr ⟨tr, hev, k.wbusy_cleared (hsu.wbusy.trans hs) (hvt.wbusy.symm.trans ht)⟩

/-! ### A STATUS or CMD write in the cycle of a completion -/

/-- A host write of `v` to STATUS in the cycle of a completion: DONE and MZ are the completion's, ILL and WBUSY the
host's to clear (60_exceptions.md R227b). -/
def Status.completedAndCleared (st : Status) (modZero : Bool) (v : Word) : Status :=
  { st.completed modZero with ill := st.ill && !v.getLsbD 3, wbusy := st.wbusy && !v.getLsbD 4 }

/-- A clear of DONE and MZ before the completion is overwritten by it. -/
theorem Status.completed_w1c (st : Status) (modZero : Bool) (v : Word) (now : SetNow) :
    (st.w1c v now).completed modZero = st.completedAndCleared modZero v := rfl

/-- A clear of DONE and MZ after the completion loses to the set of the same cycle. -/
theorem Status.w1c_completed (st : Status) (modZero : Bool) (v : Word) :
    (st.completed modZero).w1c v { done := true, mz := modZero } = st.completedAndCleared modZero v := by
  cases modZero <;> rfl

theorem transact_statusStore (v : Word) (now : SetNow) (s : State) :
    transact (Transaction.store 0x008#12 v) now s =
      .next { s with rsp := some Response.written, status := s.status.w1c v now } :=
  transact_statusWrite (store_accessOk v rfl) rfl rfl now s

section WriteInLastCycle

variable {s : State} {c : Active} (hs : s.Inv) (hact : s.active = some c) (hcyc : s.cyc = 1)

include hs hact hcyc

theorem setByClock_of_lastEdge : s.setByClock = { done := true, mz := decide (s.mod = 0#2048) } := by
  have hclk : s.clock = s.complete c := clock_completes hact hcyc.le
  rw [setByClock_of_completion (hs.busy_of_active hact) (by simp [hclk]), hclk]
  simp [eqBit_zero]

/-- A completion and a write to STATUS leave the same flags in either order (60_exceptions.md R227b). -/
theorem sameCycle_statusWriteAndCompletion (v : Word) (first : First) :
    ∃ t, sameCycle (Transaction.store 0x008#12 v) first s = .next t ∧
      t.status = s.status.completedAndCleared (decide (s.mod = 0#2048)) v := by
  have hb : s.status.busy = true := hs.busy_of_active hact
  cases first with
  | transaction =>
    rw [sameCycle_transactionFirst hb, transact_statusStore, mapNext]
    refine ⟨_, rfl, ?_⟩
    rw [clock_completes (s := { s with rsp := some Response.written, status := s.status.w1c v SetNow.nothing })
      hact hcyc.le, complete_status, eqBit_zero]
    exact Status.completed_w1c _ _ _ _
  | clock =>
    rw [sameCycle_clockFirst hb, transact_statusStore, setByClock_of_lastEdge hs hact hcyc,
      clock_completes hact hcyc.le]
    refine ⟨_, rfl, ?_⟩
    rw [complete_status, eqBit_zero]
    exact Status.w1c_completed _ _ _

/-- Ordered before the completing edge, a command word is dropped with WBUSY (60_exceptions.md R227c). -/
theorem sameCycle_commandThenCompletion (v : Word) :
    sameCycle (commandWrite v) .transaction s = .next ((s.respond Response.written).setWbusy.complete c) := by
  have hb : s.status.busy = true := hs.busy_of_active hact
  have hdrop : transact (commandWrite v) SetNow.nothing s = .next (s.respond Response.written).setWbusy :=
    (transact_store v _ s rfl).trans (issueCommand_busy (s := s.respond Response.written) hb v)
  have hclock : (s.respond Response.written).setWbusy.clock = (s.respond Response.written).setWbusy.complete c :=
    clock_completes hact hcyc.le
  rw [sameCycle_transactionFirst hb, hdrop, mapNext, hclock]

/-- Ordered after the completing edge, a command word is accepted (60_exceptions.md R227c). -/
theorem sameCycle_completionThenCommand (i : Instr) :
    sameCycle (commandWrite (encode i)) .clock s =
      .next (((s.complete c).respond Response.written).accept (opOf i) (emodeOf i)) := by
  have hidle : ((s.complete c).respond Response.written).status.busy = false := by simp
  have hdecode : decode (encode i) = .command i := (decodeAgreesWithEncode _ i).mpr rfl
  rw [sameCycle_clockFirst (hs.busy_of_active hact), clock_completes hact hcyc.le]
  exact (transact_store (encode i) _ _ rfl).trans (issueCommand_command hidle hdecode)

end WriteInLastCycle

/-- Settles O50: the flags of the cycle are the completion's and the clears of the others. -/
theorem completionSetWinsOverClear : Obligations.CompletionSetWinsOverClear := by
  intro s rest v first c hs hact hcyc h
  obtain ⟨t, hstep, hstatus⟩ := sameCycle_statusWriteAndCompletion (hs.dropEvent h) hact hcyc v first
  refine ⟨t, (step_of_cycle h).trans hstep, ?_⟩
  simp +contextual [hstatus, Status.completedAndCleared]

/-- Settles O51: before the edge the command is dropped, after it the core is idle and the command is accepted. -/
theorem commandWriteRacesCompletion : Obligations.CommandWriteRacesCompletion := by
  intro s rest i c hs hact hcyc hm
  have hw : 0 < c.width := hs.active_width_pos hact
  refine ⟨fun h => ?_, fun h => ?_⟩
  · refine ⟨_, (step_of_cycle h).trans (sameCycle_commandThenCompletion (hs.dropEvent h) hact hcyc _), ?_⟩
    exact ⟨by simp, by simp, by simp, by simp, rfl, complete_result_toNat (s := State.setWbusy _) hw hm⟩
  · refine ⟨_, (step_of_cycle h).trans (sameCycle_completionThenCommand (hs.dropEvent h) hact hcyc i), ?_⟩
    refine ⟨by simp, by simp, by simp, by simp, by simp, ?_⟩
    rw [State.accept_result]
    exact complete_result_toNat (s := { s with schedule := rest }) hw hm

end Sys2Proof.Machine

/-!
PROOFS of the statements about reset (70_reset_and_hazards.md): the control state it gives from every state, and what the
host sees of a core in that state.
-/

namespace Sys2Proof.Machine

/-! ### The control state of reset -/

/-- The values that reset gives the control state (10_state.md R38), with no response on the port. Of the operand registers
and RESULT it says nothing (R39). -/
structure State.InReset (s : State) : Prop where
  status : s.status = Status.reset
  ie : s.ie = false
  phase : s.phase = .idle
  cyc : s.cyc = 0
  iter : s.iter = 0
  active : s.active = none
  rsp : s.rsp = none

/-- A reset event gives the control state whatever is in flight (70_reset_and_hazards.md R250). -/
theorem applyReset_inReset (s : State) : s.applyReset.InReset where
  status := s.applyReset_status
  ie := s.applyReset_ie
  phase := s.applyReset_phase
  cyc := s.applyReset_cyc
  iter := s.applyReset_iter
  active := s.applyReset_active
  rsp := s.applyReset_rsp

theorem resetOf_inReset (p : Params) : (State.resetOf p).InReset := ⟨rfl, rfl, rfl, rfl, rfl, rfl, rfl⟩

/-- STATUS resets to 0x0000_0000 (10_state.md R38). -/
theorem Status.reset_toWord : Status.reset.toWord = 0#32 := by decide

@[simp] theorem windowRead_status (s : State) : s.windowRead 0x008#12 = s.status.toWord := rfl

namespace State.InReset

variable {s : State}

theorem statusWord_eq_zero (h : s.InReset) : s.status.toWord = 0#32 := by
  rw [h.status, Status.reset_toWord]

/-- CTRL resets to 0x0000_0000, the interrupt masked (10_state.md R38). -/
theorem ctrlWord_eq_zero (h : s.InReset) : ctrlWord s.ie = 0#32 := by
  rw [h.ie, ctrlWord_eq_ite, if_neg Bool.false_ne_true]

theorem irq_eq_false (h : s.InReset) : s.irq = false := by
  rw [State.irq, h.ie, Bool.false_and]

/-- The core waits: a clock edge finds no command in flight (70_reset_and_hazards.md R252). -/
theorem clock_eq_self (h : s.InReset) : s.clock = s := clock_idle h.active

/-- What the host reads of an admissible instance in reset (70_reset_and_hazards.md R252). -/
theorem windowReads (h : s.InReset) (hp : s.params.Wf) :
    s.windowRead 0x008#12 = 0#32 ∧ s.windowRead 0x00C#12 = 0#32 ∧
      (s.windowRead 0x000#12).toNat = 0x00170000 + s.params.width / 32 := by
  rw [windowRead_status, windowRead_ctrl, windowRead_cfg]
  exact ⟨h.statusWord_eq_zero, h.ctrlWord_eq_zero, cfgWord_toNat hp⟩

end State.InReset

/-! ### The statements -/

/-- Settles O52: a reset event leads to the control state of reset and takes only itself from the schedule. -/
theorem resetGivesTheControlState : Obligations.ResetGivesTheControlState := by
  intro s rest h
  have k : s.popEvent.applyReset.InReset := applyReset_inReset _
  refine ⟨_, step_of_reset h, k.statusWord_eq_zero, k.ctrlWord_eq_zero, k.phase, k.cyc, k.iter, k.active, k.rsp,
    k.irq_eq_false, rfl, ?_⟩
  rw [State.applyReset_schedule, State.popEvent_schedule, h, List.tail_cons]

/-- With nothing scheduled a step of the core in reset is a clock edge, which changes nothing. -/
theorem step_resetOf (p : Params) : step (State.resetOf p) = .next (State.resetOf p) := by
  rw [step_silent rfl, (resetOf_inReset p).clock_eq_self]

/-- Settles O53: the state after a reset event and `State.resetOf` are both in reset, and such a core waits. -/
theorem afterResetTheCoreWaits : Obligations.AfterResetTheCoreWaits := by
  refine ⟨fun s t rest hp h ht => ?_, fun p hp => ?_⟩
  · rw [step_of_reset h] at ht
    injection ht with ht
    subst ht
    have k : s.popEvent.applyReset.InReset := applyReset_inReset _
    obtain ⟨hstatus, hctrl, hcfg⟩ := k.windowReads hp
    exact ⟨hstatus, hctrl, hcfg, k.irq_eq_false, k.clock_eq_self⟩
  · have k := resetOf_inReset p
    obtain ⟨hstatus, hctrl, hcfg⟩ := k.windowReads hp
    exact ⟨hstatus, hctrl, hcfg, k.irq_eq_false, step_resetOf p⟩

end Sys2Proof.Machine
